-- ==== Sys2Proof/Word.lean ====
section
/-! DEFINITION. The word of the bus: every register and every bus access has 32 bits (00_scope.md R8 `REG_BITS`,
20_memory.md R64). All values are unsigned (00_scope.md R12, R16). -/

namespace Sys2Proof

/-- A register or bus word, bit 0 least significant (R12). -/
abbrev Word := BitVec 32

/-- A byte of a word, as a bus that splits words sees it (20_memory.md R63). -/
abbrev Byte := BitVec 8

end Sys2Proof
end

