-- ==== Sys2Proof/Config.lean ====
section
/-! DEFINITION. The implementation parameters of 00_scope.md R8. The counts the spec fixes are index types; `U` and `EPS`
are constants; the parameters R8 marks OPEN are the fields of `Params`, an argument that the state carries
(`Machine.State.params`, log entry 4), so that a statement about every state is a statement about every value of them. -/

namespace Sys2Proof

/-- A pin index, `NPINS` = 49 (R8). -/
abbrev PinIx := Fin 49
/-- A logical output or input signal id, `N_OUT_SIG` = `N_IN_SIG` = 256 (R8). -/
abbrev SigIx := Fin 256
/-- A duty channel, `N_DUTY` = 8 (R8). -/
abbrev DutyIx := Fin 8
/-- A compare-unit timer, `N_TMR` = 3 (R8). -/
abbrev TmrIx := Fin 3
/-- A compare-unit operator, `N_OP` = 3 (R8). -/
abbrev OpIx := Fin 3
/-- An output of an operator, `N_OPOUT` = 2 (R8). -/
abbrev OutIx := Fin 2
/-- A streaming channel, `N_STRM` = 4 (R8). -/
abbrev StrmIx := Fin 4
/-- A word of a streaming channel's ring, `RING_WORDS` = 64 (R8). -/
abbrev RingIx := Fin 64

namespace Config

/-- `U`, virtual-time units per second (R8, decision D15). -/
def unitsPerSecond : Nat := 1000000000

/-- `EPS`, the clamp margin of the duty arithmetic, in time units (R8, decision D15). -/
def eps : Nat := 1

end Config

/-- The parameters R8 marks OPEN (log entry 4). -/
structure Params where
  /-- `DUTY_CLK_HZ[0]`, in Hz (decision D16). -/
  dutyClkHz0 : Nat
  /-- `DUTY_CLK_HZ[1]`, in Hz (decision D16). -/
  dutyClkHz1 : Nat
  /-- `MCMP_CLK_HZ`, in Hz (decision D16). -/
  mcmpClkHz : Nat
  /-- `STRM_CLK_HZ`, in Hz (decision D16). -/
  strmClkHz : Nat
  /-- `DUTY_SIG_BASE`: duty channel n announces on signal `DUTY_SIG_BASE` + n (decision D13). -/
  dutySigBase : Nat
  /-- `MCMP_SIG_BASE`: operator o output k announces on `MCMP_SIG_BASE` + 2o + k (decision D13). -/
  mcmpSigBase : Nat
  /-- `GPIO_BASE`, on the system bus (decision D1). No rule reads the four bases (20_memory.md R60). -/
  gpioBase : Nat
  /-- `DUTY_BASE` (decision D1). -/
  dutyBase : Nat
  /-- `MCMP_BASE` (decision D1). -/
  mcmpBase : Nat
  /-- `STRM_BASE` (decision D1). -/
  strmBase : Nat
  /-- `SINK_PRESENT[n]` (decision D37). -/
  sinkPresent : Vector Bool 4
  deriving DecidableEq, Repr

/-- The reference values of R8, the ones 95_test_vectors.md uses. R8 gives the window bases none: DESIGN CHOICE, four
windows of 4096 bytes side by side (log entry 11). -/
def Params.reference : Params where
  dutyClkHz0 := 1000000
  dutyClkHz1 := 80000000
  mcmpClkHz := 1000000
  strmClkHz := 1000000
  dutySigBase := 64
  mcmpSigBase := 32
  gpioBase := 0x0000
  dutyBase := 0x1000
  mcmpBase := 0x2000
  strmBase := 0x3000
  sinkPresent := Vector.replicate 4 true

/-- Decision D13: the two ranges of signal ids lie in 0 to 255 and do not overlap. -/
def Params.wf (p : Params) : Bool :=
  decide (p.dutySigBase + 8 ≤ 256) && decide (p.mcmpSigBase + 6 ≤ 256) &&
    (decide (p.dutySigBase + 8 ≤ p.mcmpSigBase) || decide (p.mcmpSigBase + 6 ≤ p.dutySigBase))

end Sys2Proof
end

