-- ==== Sys2Proof/Syntax.lean ====
section
/-! DEFINITION. The operations of the block (30_encoding.md R85): one constructor of `Instr` for each row of
spec/opcode_table.json. `Request` is an operation as an agent offers it, before it is decoded: its operands are not yet
known to be in range. `Reject` names what makes a request no operation of the block. -/

namespace Sys2Proof

/-- The four bus windows (20_memory.md R60, 30_encoding.md R86). -/
inductive Window where
  | gpio
  | duty
  | mcmp
  | strm
  deriving DecidableEq, Repr

/-- The operations. `rX` is a `BusRead` and `wX` a `BusWrite` of the register named after it; `v` is the written word. A
register's index is a value of its own range (R95 to R98), so an operation with an index out of range cannot be written. -/
inductive Instr where
  /-- `R GPIO.LEVEL_LO` (R170). -/
  | rGpioLevelLo
  /-- `W GPIO.LEVEL_LO` (R167). -/
  | wGpioLevelLo (v : Word)
  /-- `R GPIO.LEVEL_HI` (R170). -/
  | rGpioLevelHi
  /-- `W GPIO.LEVEL_HI` (R168). -/
  | wGpioLevelHi (v : Word)
  /-- `R GPIO.A_RAW_LO` (R144). -/
  | rGpioARawLo
  /-- `W GPIO.A_RAW_LO` (R124). -/
  | wGpioARawLo (v : Word)
  /-- `R GPIO.A_RAW_HI` (R144). -/
  | rGpioARawHi
  /-- `W GPIO.A_RAW_HI` (R124). -/
  | wGpioARawHi (v : Word)
  /-- `R GPIO.A_STATUS_LO` (R144). -/
  | rGpioAStatusLo
  /-- `W GPIO.A_STATUS_LO` (R124). -/
  | wGpioAStatusLo (v : Word)
  /-- `R GPIO.A_STATUS_HI` (R144). -/
  | rGpioAStatusHi
  /-- `W GPIO.A_STATUS_HI` (R124). -/
  | wGpioAStatusHi (v : Word)
  /-- `R GPIO.A_ENABLE_LO` (R144). -/
  | rGpioAEnableLo
  /-- `W GPIO.A_ENABLE_LO` (R142). -/
  | wGpioAEnableLo (v : Word)
  /-- `R GPIO.A_ENABLE_HI` (R144). -/
  | rGpioAEnableHi
  /-- `W GPIO.A_ENABLE_HI` (R142). -/
  | wGpioAEnableHi (v : Word)
  /-- `R GPIO.A_CLEAR_LO` (R124). -/
  | rGpioAClearLo
  /-- `W GPIO.A_CLEAR_LO` (R143). -/
  | wGpioAClearLo (v : Word)
  /-- `R GPIO.A_CLEAR_HI` (R124). -/
  | rGpioAClearHi
  /-- `W GPIO.A_CLEAR_HI` (R143). -/
  | wGpioAClearHi (v : Word)
  /-- `R GPIO.B_RAW_LO` (R144). -/
  | rGpioBRawLo
  /-- `W GPIO.B_RAW_LO` (R124). -/
  | wGpioBRawLo (v : Word)
  /-- `R GPIO.B_RAW_HI` (R144). -/
  | rGpioBRawHi
  /-- `W GPIO.B_RAW_HI` (R124). -/
  | wGpioBRawHi (v : Word)
  /-- `R GPIO.B_STATUS_LO` (R144). -/
  | rGpioBStatusLo
  /-- `W GPIO.B_STATUS_LO` (R124). -/
  | wGpioBStatusLo (v : Word)
  /-- `R GPIO.B_STATUS_HI` (R144). -/
  | rGpioBStatusHi
  /-- `W GPIO.B_STATUS_HI` (R124). -/
  | wGpioBStatusHi (v : Word)
  /-- `R GPIO.B_ENABLE_LO` (R144). -/
  | rGpioBEnableLo
  /-- `W GPIO.B_ENABLE_LO` (R142). -/
  | wGpioBEnableLo (v : Word)
  /-- `R GPIO.B_ENABLE_HI` (R144). -/
  | rGpioBEnableHi
  /-- `W GPIO.B_ENABLE_HI` (R142). -/
  | wGpioBEnableHi (v : Word)
  /-- `R GPIO.B_CLEAR_LO` (R124). -/
  | rGpioBClearLo
  /-- `W GPIO.B_CLEAR_LO` (R143). -/
  | wGpioBClearLo (v : Word)
  /-- `R GPIO.B_CLEAR_HI` (R124). -/
  | rGpioBClearHi
  /-- `W GPIO.B_CLEAR_HI` (R143). -/
  | wGpioBClearHi (v : Word)
  /-- `R GPIO.PINp_CFG` (R170). -/
  | rGpioPinCfg (p : PinIx)
  /-- `W GPIO.PINp_CFG` (R169). -/
  | wGpioPinCfg (p : PinIx) (v : Word)
  /-- `R GPIO.OUTSELp` (R188). -/
  | rGpioOutsel (p : PinIx)
  /-- `W GPIO.OUTSELp` (R186). -/
  | wGpioOutsel (p : PinIx) (v : Word)
  /-- `R GPIO.INSELs` (R188). -/
  | rGpioInsel (s : SigIx)
  /-- `W GPIO.INSELs` (R187). -/
  | wGpioInsel (s : SigIx) (v : Word)
  /-- `R DUTY.CHn_CONF` (R220). -/
  | rDutyChConf (n : DutyIx)
  /-- `W DUTY.CHn_CONF` (R216). -/
  | wDutyChConf (n : DutyIx) (v : Word)
  /-- `R DUTY.CHn_DUTY` (R220). -/
  | rDutyChDuty (n : DutyIx)
  /-- `W DUTY.CHn_DUTY` (R217). -/
  | wDutyChDuty (n : DutyIx) (v : Word)
  /-- `R DUTY.CHn_FADE` (R220). -/
  | rDutyChFade (n : DutyIx)
  /-- `W DUTY.CHn_FADE` (R218). -/
  | wDutyChFade (n : DutyIx) (v : Word)
  /-- `R DUTY.CHn_PCT` (R219). -/
  | rDutyChPct (n : DutyIx)
  /-- `W DUTY.CHn_PCT` (R124). -/
  | wDutyChPct (n : DutyIx) (v : Word)
  /-- `R DUTY.INT_RAW` (R147). -/
  | rDutyIntRaw
  /-- `W DUTY.INT_RAW` (R124). -/
  | wDutyIntRaw (v : Word)
  /-- `R DUTY.INT_STATUS` (R147). -/
  | rDutyIntStatus
  /-- `W DUTY.INT_STATUS` (R124). -/
  | wDutyIntStatus (v : Word)
  /-- `R DUTY.INT_ENABLE` (R147). -/
  | rDutyIntEnable
  /-- `W DUTY.INT_ENABLE` (R146). -/
  | wDutyIntEnable (v : Word)
  /-- `R DUTY.INT_CLEAR` (R124). -/
  | rDutyIntClear
  /-- `W DUTY.INT_CLEAR` (R145). -/
  | wDutyIntClear (v : Word)
  /-- `R MCMP.TMRt_CFG` (R249). -/
  | rMcmpTmrCfg (t : TmrIx)
  /-- `W MCMP.TMRt_CFG` (R243). -/
  | wMcmpTmrCfg (t : TmrIx) (v : Word)
  /-- `R MCMP.OPo_MODE` (R249). -/
  | rMcmpOpMode (o : OpIx)
  /-- `W MCMP.OPo_MODE` (R244). -/
  | wMcmpOpMode (o : OpIx) (v : Word)
  /-- `R MCMP.OPo_CMPA` (R249). -/
  | rMcmpOpCmpa (o : OpIx)
  /-- `W MCMP.OPo_CMPA` (R250). -/
  | wMcmpOpCmpa (o : OpIx) (v : Word)
  /-- `R MCMP.OPo_CMPB` (R249). -/
  | rMcmpOpCmpb (o : OpIx)
  /-- `W MCMP.OPo_CMPB` (R251). -/
  | wMcmpOpCmpb (o : OpIx) (v : Word)
  /-- `R STRM.CHn_CONF` (R289). -/
  | rStrmChConf (n : StrmIx)
  /-- `W STRM.CHn_CONF` (R285). -/
  | wStrmChConf (n : StrmIx) (v : Word)
  /-- `R STRM.INT_RAW` (R149). -/
  | rStrmIntRaw
  /-- `W STRM.INT_RAW` (R124). -/
  | wStrmIntRaw (v : Word)
  /-- `R STRM.INT_STATUS` (R149). -/
  | rStrmIntStatus
  /-- `W STRM.INT_STATUS` (R124). -/
  | wStrmIntStatus (v : Word)
  /-- `R STRM.INT_ENABLE` (R149). -/
  | rStrmIntEnable
  /-- `W STRM.INT_ENABLE` (R148). -/
  | wStrmIntEnable (v : Word)
  /-- `R STRM.INT_CLEAR` (R124). -/
  | rStrmIntClear
  /-- `W STRM.INT_CLEAR` (R287). -/
  | wStrmIntClear (v : Word)
  /-- `R STRM.CHn_RAMi` (R289). -/
  | rStrmRam (n : StrmIx) (i : RingIx)
  /-- `W STRM.CHn_RAMi` (R286). -/
  | wStrmRam (n : StrmIx) (i : RingIx) (v : Word)
  /-- `R unmapped` (R122). -/
  | rUnmapped (win : Window) (off : BitVec 12)
  /-- `W unmapped` (R123). -/
  | wUnmapped (win : Window) (off : BitVec 12) (v : Word)
  /-- `PIN_IN` (R166). -/
  | pinIn (p : PinIx) (v : Bool)
  /-- `ANNOUNCE` (R191). -/
  | announce (sig : SigIx) (level : Bool) (param : Option Word)
  /-- `ADVANCE` (R302). -/
  | advance (t : Nat)
  /-- `FIRE DUTY(n)` (R214). -/
  | fireDuty (n : DutyIx)
  /-- `FIRE MCMP(o,k)` (R248). -/
  | fireMcmp (o : OpIx) (k : OutIx)
  /-- `FIRE STRM(n)` (R288). -/
  | fireStrm (n : StrmIx)
  /-- `RESET` (R350). -/
  | reset
  deriving DecidableEq, Repr

/-- An operation as an agent offers it (R85). Bus requests carry the window, a byte offset and an access width in bits; the
event and clock requests carry their operands as numbers. -/
inductive Request where
  /-- A bus read of `width` bits at byte offset `off`. -/
  | busRead (win : Window) (off width : Nat)
  /-- A bus write of `width` bits at byte offset `off`. -/
  | busWrite (win : Window) (off width : Nat) (data : Word)
  /-- `PIN_IN(p, v)`. -/
  | pinIn (p v : Nat)
  /-- `ANNOUNCE(sig, level, param)`. -/
  | announce (sig level : Nat) (param : Option Word)
  /-- `ADVANCE(t)`. -/
  | advance (t : Nat)
  /-- `FIRE(DUTY(n))`. -/
  | fireDuty (n : Nat)
  /-- `FIRE(MCMP(o,k))`. -/
  | fireMcmp (o k : Nat)
  /-- `FIRE(STRM(n))`. -/
  | fireStrm (n : Nat)
  /-- `RESET`. -/
  | reset
  /-- Bits that are neither a selector nor a selector with its data word (R86). -/
  | junk (w : Nat)
  deriving DecidableEq, Repr

/-- Why a request is no operation of the block (20_memory.md R61, R64; 30_encoding.md R104 (f); decision D2). Each is
safe: the block has no transition there (log entry 7). -/
inductive Reject where
  /-- A bus access that is not 32 bits wide (R64). -/
  | notAWord
  /-- A byte offset above 0xFFF (R60, decision D2). -/
  | beyondWindow
  /-- A byte offset that is not a multiple of 4 (R64). -/
  | misaligned
  /-- A pin index of 49 or more (R61). -/
  | noSuchPin
  /-- A signal id of 256 or more (R61). -/
  | noSuchSignal
  /-- A level that is neither 0 nor 1 (93_implementation_defined.md I2). -/
  | notALevel
  /-- A token that names no channel (10_state.md R24). -/
  | noSuchToken
  /-- Bits that are no selector (R86). -/
  | notASelector
  deriving DecidableEq, Repr

end Sys2Proof
end

