-- ==== Sys2Proof/WellFormed.lean ====
section
/-! DEFINITION. Which terms of `Instr` are operations of the block. The indices are in range by their types; what is left
to check is the offset of the two unmapped rows: it is a multiple of 4 (20_memory.md R64) and one of the offsets that
30_encoding.md R95 to R98 list as unmapped. The lists below are those sentences, not the register map read backwards. -/

namespace Sys2Proof

/-- `lo` to `hi`, both included. -/
def Window.between (lo hi off : Nat) : Bool := decide (lo ≤ off) && decide (off ≤ hi)

/-- The sentences 'Every other offset is unmapped: ...' of R95 (`GPIO`), R96 (`DUTY`), R97 (`MCMP`) and R98 (`STRM`). -/
def Window.listsUnmapped (win : Window) (off : Nat) : Bool :=
  match win with
  | .gpio => off == 0x008 || off == 0x00C || between 0x050 0x0FC off || between 0x1C4 0x1FC off ||
      between 0x2C4 0x3FC off || between 0x800 0xFFC off
  | .duty => between 0x080 0x0BC off || between 0x0D0 0xFFC off
  | .mcmp => between 0x00C 0x03C off || off == 0x04C || off == 0x05C || off == 0x06C || between 0x070 0xFFC off
  | .strm => between 0x004 0x00C off || between 0x014 0x01C off || between 0x024 0x02C off || between 0x034 0x03C off ||
      between 0x040 0x0BC off || between 0x0D0 0x3FC off || between 0x800 0xFFC off

/-- An offset of a 32-bit access (R64) that the window does not map (R95 to R98). -/
def Window.unmappedWord (win : Window) (off : Nat) : Bool := off % 4 == 0 && win.listsUnmapped off

/-- Every term is well formed but an unmapped access at an offset that is misaligned or mapped. -/
def Instr.wf (i : Instr) : Bool :=
  match i with
  | .rUnmapped win off => win.unmappedWord off.toNat
  | .wUnmapped win off _ => win.unmappedWord off.toNat
  | .rGpioLevelLo | .wGpioLevelLo _ | .rGpioLevelHi | .wGpioLevelHi _ | .rGpioARawLo | .wGpioARawLo _
  | .rGpioARawHi | .wGpioARawHi _ | .rGpioAStatusLo | .wGpioAStatusLo _ | .rGpioAStatusHi | .wGpioAStatusHi _
  | .rGpioAEnableLo | .wGpioAEnableLo _ | .rGpioAEnableHi | .wGpioAEnableHi _ | .rGpioAClearLo
  | .wGpioAClearLo _ | .rGpioAClearHi | .wGpioAClearHi _ | .rGpioBRawLo | .wGpioBRawLo _ | .rGpioBRawHi
  | .wGpioBRawHi _ | .rGpioBStatusLo | .wGpioBStatusLo _ | .rGpioBStatusHi | .wGpioBStatusHi _
  | .rGpioBEnableLo | .wGpioBEnableLo _ | .rGpioBEnableHi | .wGpioBEnableHi _ | .rGpioBClearLo
  | .wGpioBClearLo _ | .rGpioBClearHi | .wGpioBClearHi _ | .rGpioPinCfg _ | .wGpioPinCfg _ _ | .rGpioOutsel _
  | .wGpioOutsel _ _ | .rGpioInsel _ | .wGpioInsel _ _ | .rDutyChConf _ | .wDutyChConf _ _ | .rDutyChDuty _
  | .wDutyChDuty _ _ | .rDutyChFade _ | .wDutyChFade _ _ | .rDutyChPct _ | .wDutyChPct _ _ | .rDutyIntRaw
  | .wDutyIntRaw _ | .rDutyIntStatus | .wDutyIntStatus _ | .rDutyIntEnable | .wDutyIntEnable _ | .rDutyIntClear
  | .wDutyIntClear _ | .rMcmpTmrCfg _ | .wMcmpTmrCfg _ _ | .rMcmpOpMode _ | .wMcmpOpMode _ _ | .rMcmpOpCmpa _
  | .wMcmpOpCmpa _ _ | .rMcmpOpCmpb _ | .wMcmpOpCmpb _ _ | .rStrmChConf _ | .wStrmChConf _ _ | .rStrmIntRaw
  | .wStrmIntRaw _ | .rStrmIntStatus | .wStrmIntStatus _ | .rStrmIntEnable | .wStrmIntEnable _ | .rStrmIntClear
  | .wStrmIntClear _ | .rStrmRam _ _ | .wStrmRam _ _ _ | .pinIn _ _ | .announce _ _ _ | .advance _
  | .fireDuty _ | .fireMcmp _ _ | .fireStrm _ | .reset => true

end Sys2Proof
end

