-- ==== Sys2Proof/Decode.lean ====
section
/-! DEFINITION. The decoder and the encoder. A bus request becomes the 15-bit selector of 30_encoding.md R86 and is looked
up among the match and mask rows of the opcode table (R87, R108); the other requests have their operands checked. A request
that is no operation of the block is rejected by name (20_memory.md R61, R64). The encoder is written from the offsets of
R95 to R98, not from the match and mask pairs. -/

namespace Sys2Proof

/-- The bits `hi` to `lo` of a selector, as a number (00_scope.md R12). -/
def selField (sel : BitVec 15) (hi lo : Nat) : Nat := sel.toNat / 2 ^ lo % 2 ^ (hi + 1 - lo)

/-- A row of the opcode table: it selects its operation when `(opsel & mask) = pat` and its index fields are in range
(R86). `make` answers `none` when an index is out of range. -/
structure Row where
  mask : BitVec 15
  pat : BitVec 15
  make : BitVec 15 → Word → Option Instr

/-- A row with no index field. -/
def Row.plain (pat : BitVec 15) (mk : Word → Instr) : Row := ⟨0x7FFF, pat, fun _ v => some (mk v)⟩

/-- A row whose index stands in the selector's bits `hi` to `lo` and ranges over 0 to `n` - 1. -/
def Row.indexed (pat mask : BitVec 15) (hi lo n : Nat) (mk : Fin n → Word → Instr) : Row :=
  ⟨mask, pat, fun sel v => if h : selField sel hi lo < n then some (mk ⟨selField sel hi lo, h⟩ v) else none⟩

/-- A row with two index fields. -/
def Row.indexed2 (pat mask : BitVec 15) (hi lo n hi' lo' n' : Nat) (mk : Fin n → Fin n' → Word → Instr) : Row :=
  ⟨mask, pat, fun sel v =>
    if h : selField sel hi lo < n then
      if h' : selField sel hi' lo' < n' then
        some (mk ⟨selField sel hi lo, h⟩ ⟨selField sel hi' lo', h'⟩ v)
      else none
    else none⟩

/-- What the row makes of a selector and a data word: `none` where it does not select it. -/
def Row.select (r : Row) (sel : BitVec 15) (v : Word) : Option Instr :=
  if sel &&& r.mask = r.pat then r.make sel v else none

/-- The `GPIO` rows of R95 with a single offset: levels and the two latch groups. -/
def gpioLatchRows : List Row := [
  .plain 0x0000 (fun _ => .rGpioLevelLo),
  .plain 0x4000 (.wGpioLevelLo),
  .plain 0x0004 (fun _ => .rGpioLevelHi),
  .plain 0x4004 (.wGpioLevelHi),
  .plain 0x0010 (fun _ => .rGpioARawLo),
  .plain 0x4010 (.wGpioARawLo),
  .plain 0x0014 (fun _ => .rGpioARawHi),
  .plain 0x4014 (.wGpioARawHi),
  .plain 0x0018 (fun _ => .rGpioAStatusLo),
  .plain 0x4018 (.wGpioAStatusLo),
  .plain 0x001C (fun _ => .rGpioAStatusHi),
  .plain 0x401C (.wGpioAStatusHi),
  .plain 0x0020 (fun _ => .rGpioAEnableLo),
  .plain 0x4020 (.wGpioAEnableLo),
  .plain 0x0024 (fun _ => .rGpioAEnableHi),
  .plain 0x4024 (.wGpioAEnableHi),
  .plain 0x0028 (fun _ => .rGpioAClearLo),
  .plain 0x4028 (.wGpioAClearLo),
  .plain 0x002C (fun _ => .rGpioAClearHi),
  .plain 0x402C (.wGpioAClearHi),
  .plain 0x0030 (fun _ => .rGpioBRawLo),
  .plain 0x4030 (.wGpioBRawLo),
  .plain 0x0034 (fun _ => .rGpioBRawHi),
  .plain 0x4034 (.wGpioBRawHi),
  .plain 0x0038 (fun _ => .rGpioBStatusLo),
  .plain 0x4038 (.wGpioBStatusLo),
  .plain 0x003C (fun _ => .rGpioBStatusHi),
  .plain 0x403C (.wGpioBStatusHi),
  .plain 0x0040 (fun _ => .rGpioBEnableLo),
  .plain 0x4040 (.wGpioBEnableLo),
  .plain 0x0044 (fun _ => .rGpioBEnableHi),
  .plain 0x4044 (.wGpioBEnableHi),
  .plain 0x0048 (fun _ => .rGpioBClearLo),
  .plain 0x4048 (.wGpioBClearLo),
  .plain 0x004C (fun _ => .rGpioBClearHi),
  .plain 0x404C (.wGpioBClearHi)]

/-- The indexed `GPIO` rows of R95: `PINp_CFG`, `OUTSELp`, `INSELs`. -/
def gpioTableRows : List Row := [
  .indexed 0x0100 0x7F03 7 2 49 (fun p _ => .rGpioPinCfg p),
  .indexed 0x4100 0x7F03 7 2 49 .wGpioPinCfg,
  .indexed 0x0200 0x7F03 7 2 49 (fun p _ => .rGpioOutsel p),
  .indexed 0x4200 0x7F03 7 2 49 .wGpioOutsel,
  .indexed 0x0400 0x7C03 9 2 256 (fun s _ => .rGpioInsel s),
  .indexed 0x4400 0x7C03 9 2 256 .wGpioInsel]

/-- The `DUTY` rows of R96. -/
def dutyRows : List Row := [
  .indexed 0x1000 0x7F8F 6 4 8 (fun n _ => .rDutyChConf n),
  .indexed 0x5000 0x7F8F 6 4 8 .wDutyChConf,
  .indexed 0x1004 0x7F8F 6 4 8 (fun n _ => .rDutyChDuty n),
  .indexed 0x5004 0x7F8F 6 4 8 .wDutyChDuty,
  .indexed 0x1008 0x7F8F 6 4 8 (fun n _ => .rDutyChFade n),
  .indexed 0x5008 0x7F8F 6 4 8 .wDutyChFade,
  .indexed 0x100C 0x7F8F 6 4 8 (fun n _ => .rDutyChPct n),
  .indexed 0x500C 0x7F8F 6 4 8 .wDutyChPct,
  .plain 0x10C0 (fun _ => .rDutyIntRaw),
  .plain 0x50C0 (.wDutyIntRaw),
  .plain 0x10C4 (fun _ => .rDutyIntStatus),
  .plain 0x50C4 (.wDutyIntStatus),
  .plain 0x10C8 (fun _ => .rDutyIntEnable),
  .plain 0x50C8 (.wDutyIntEnable),
  .plain 0x10CC (fun _ => .rDutyIntClear),
  .plain 0x50CC (.wDutyIntClear)]

/-- The `MCMP` rows of R97. -/
def mcmpRows : List Row := [
  .indexed 0x2000 0x7FF3 3 2 3 (fun t _ => .rMcmpTmrCfg t),
  .indexed 0x6000 0x7FF3 3 2 3 .wMcmpTmrCfg,
  .indexed 0x2040 0x7FCF 5 4 3 (fun o _ => .rMcmpOpMode o),
  .indexed 0x6040 0x7FCF 5 4 3 .wMcmpOpMode,
  .indexed 0x2044 0x7FCF 5 4 3 (fun o _ => .rMcmpOpCmpa o),
  .indexed 0x6044 0x7FCF 5 4 3 .wMcmpOpCmpa,
  .indexed 0x2048 0x7FCF 5 4 3 (fun o _ => .rMcmpOpCmpb o),
  .indexed 0x6048 0x7FCF 5 4 3 .wMcmpOpCmpb]

/-- The `STRM` rows of R98. -/
def strmRows : List Row := [
  .indexed 0x3000 0x7FCF 5 4 4 (fun n _ => .rStrmChConf n),
  .indexed 0x7000 0x7FCF 5 4 4 .wStrmChConf,
  .plain 0x30C0 (fun _ => .rStrmIntRaw),
  .plain 0x70C0 (.wStrmIntRaw),
  .plain 0x30C4 (fun _ => .rStrmIntStatus),
  .plain 0x70C4 (.wStrmIntStatus),
  .plain 0x30C8 (fun _ => .rStrmIntEnable),
  .plain 0x70C8 (.wStrmIntEnable),
  .plain 0x30CC (fun _ => .rStrmIntClear),
  .plain 0x70CC (.wStrmIntClear),
  .indexed2 0x3400 0x7C03 9 8 4 7 2 64 (fun n i _ => .rStrmRam n i),
  .indexed2 0x7400 0x7C03 9 8 4 7 2 64 .wStrmRam]

/-- Every mapped row of the opcode table, read and write. -/
def busRows : List Row := gpioLatchRows ++ gpioTableRows ++ dutyRows ++ mcmpRows ++ strmRows

/-- The window's two selector bits (R86). -/
def Window.code (win : Window) : Nat :=
  match win with
  | .gpio => 0
  | .duty => 1
  | .mcmp => 2
  | .strm => 3

/-- The window that two selector bits name (R86). -/
def Window.ofCode (c : Nat) : Window :=
  match c % 4 with
  | 0 => .gpio
  | 1 => .duty
  | 2 => .mcmp
  | _ => .strm

/-- `opsel = {dir, win[1:0], off[11:0]}`, with `dir` 1 for a write (R86). -/
def selector (write : Bool) (win : Window) (off : BitVec 12) : BitVec 15 :=
  BitVec.ofBool write ++ BitVec.ofNat 2 win.code ++ off

/-- R87: the operation of a bus access at an aligned offset: the row that selects it, else the unmapped access. -/
def decodeBus (write : Bool) (win : Window) (off : BitVec 12) (v : Word) : Instr :=
  match busRows.findSome? (fun r => r.select (selector write win off) v) with
  | some i => i
  | none => if write then .wUnmapped win off v else .rUnmapped win off

/-- R60, R64: what makes a bus access no operation of the block, if anything does. -/
def busReject (off width : Nat) : Option Reject :=
  if width ≠ 32 then some .notAWord
  else if 0x1000 ≤ off then some .beyondWindow
  else if off % 4 ≠ 0 then some .misaligned
  else none

/-- The decoder: total on every request, rejecting by name (R61, R64, R87). -/
def decode (r : Request) : Except Reject Instr :=
  match r with
  | .busRead win off width =>
    match busReject off width with
    | some e => .error e
    | none => .ok (decodeBus false win (BitVec.ofNat 12 off) 0)
  | .busWrite win off width v =>
    match busReject off width with
    | some e => .error e
    | none => .ok (decodeBus true win (BitVec.ofNat 12 off) v)
  | .pinIn p v =>
    if h : p < 49 then (if v < 2 then .ok (.pinIn ⟨p, h⟩ (v == 1)) else .error .notALevel) else .error .noSuchPin
  | .announce sig level param =>
    if h : sig < 256 then (if level < 2 then .ok (.announce ⟨sig, h⟩ (level == 1) param) else .error .notALevel)
    else .error .noSuchSignal
  | .advance t => .ok (.advance t)
  | .fireDuty n => if h : n < 8 then .ok (.fireDuty ⟨n, h⟩) else .error .noSuchToken
  | .fireMcmp o k =>
    if h : o < 3 then (if h' : k < 2 then .ok (.fireMcmp ⟨o, h⟩ ⟨k, h'⟩) else .error .noSuchToken)
    else .error .noSuchToken
  | .fireStrm n => if h : n < 4 then .ok (.fireStrm ⟨n, h⟩) else .error .noSuchToken
  | .reset => .ok .reset
  | .junk _ => .error .notASelector

/-- The encoder: the request of an operation, at the offsets of R95 to R98 and with the operands of R85. -/
def encode (i : Instr) : Request :=
  match i with
  | .rGpioLevelLo => .busRead .gpio 0x000 32
  | .wGpioLevelLo v => .busWrite .gpio 0x000 32 v
  | .rGpioLevelHi => .busRead .gpio 0x004 32
  | .wGpioLevelHi v => .busWrite .gpio 0x004 32 v
  | .rGpioARawLo => .busRead .gpio 0x010 32
  | .wGpioARawLo v => .busWrite .gpio 0x010 32 v
  | .rGpioARawHi => .busRead .gpio 0x014 32
  | .wGpioARawHi v => .busWrite .gpio 0x014 32 v
  | .rGpioAStatusLo => .busRead .gpio 0x018 32
  | .wGpioAStatusLo v => .busWrite .gpio 0x018 32 v
  | .rGpioAStatusHi => .busRead .gpio 0x01C 32
  | .wGpioAStatusHi v => .busWrite .gpio 0x01C 32 v
  | .rGpioAEnableLo => .busRead .gpio 0x020 32
  | .wGpioAEnableLo v => .busWrite .gpio 0x020 32 v
  | .rGpioAEnableHi => .busRead .gpio 0x024 32
  | .wGpioAEnableHi v => .busWrite .gpio 0x024 32 v
  | .rGpioAClearLo => .busRead .gpio 0x028 32
  | .wGpioAClearLo v => .busWrite .gpio 0x028 32 v
  | .rGpioAClearHi => .busRead .gpio 0x02C 32
  | .wGpioAClearHi v => .busWrite .gpio 0x02C 32 v
  | .rGpioBRawLo => .busRead .gpio 0x030 32
  | .wGpioBRawLo v => .busWrite .gpio 0x030 32 v
  | .rGpioBRawHi => .busRead .gpio 0x034 32
  | .wGpioBRawHi v => .busWrite .gpio 0x034 32 v
  | .rGpioBStatusLo => .busRead .gpio 0x038 32
  | .wGpioBStatusLo v => .busWrite .gpio 0x038 32 v
  | .rGpioBStatusHi => .busRead .gpio 0x03C 32
  | .wGpioBStatusHi v => .busWrite .gpio 0x03C 32 v
  | .rGpioBEnableLo => .busRead .gpio 0x040 32
  | .wGpioBEnableLo v => .busWrite .gpio 0x040 32 v
  | .rGpioBEnableHi => .busRead .gpio 0x044 32
  | .wGpioBEnableHi v => .busWrite .gpio 0x044 32 v
  | .rGpioBClearLo => .busRead .gpio 0x048 32
  | .wGpioBClearLo v => .busWrite .gpio 0x048 32 v
  | .rGpioBClearHi => .busRead .gpio 0x04C 32
  | .wGpioBClearHi v => .busWrite .gpio 0x04C 32 v
  | .rGpioPinCfg p => .busRead .gpio (0x100 + 4 * p.val) 32
  | .wGpioPinCfg p v => .busWrite .gpio (0x100 + 4 * p.val) 32 v
  | .rGpioOutsel p => .busRead .gpio (0x200 + 4 * p.val) 32
  | .wGpioOutsel p v => .busWrite .gpio (0x200 + 4 * p.val) 32 v
  | .rGpioInsel s => .busRead .gpio (0x400 + 4 * s.val) 32
  | .wGpioInsel s v => .busWrite .gpio (0x400 + 4 * s.val) 32 v
  | .rDutyChConf n => .busRead .duty (16 * n.val) 32
  | .wDutyChConf n v => .busWrite .duty (16 * n.val) 32 v
  | .rDutyChDuty n => .busRead .duty (0x004 + 16 * n.val) 32
  | .wDutyChDuty n v => .busWrite .duty (0x004 + 16 * n.val) 32 v
  | .rDutyChFade n => .busRead .duty (0x008 + 16 * n.val) 32
  | .wDutyChFade n v => .busWrite .duty (0x008 + 16 * n.val) 32 v
  | .rDutyChPct n => .busRead .duty (0x00C + 16 * n.val) 32
  | .wDutyChPct n v => .busWrite .duty (0x00C + 16 * n.val) 32 v
  | .rDutyIntRaw => .busRead .duty 0x0C0 32
  | .wDutyIntRaw v => .busWrite .duty 0x0C0 32 v
  | .rDutyIntStatus => .busRead .duty 0x0C4 32
  | .wDutyIntStatus v => .busWrite .duty 0x0C4 32 v
  | .rDutyIntEnable => .busRead .duty 0x0C8 32
  | .wDutyIntEnable v => .busWrite .duty 0x0C8 32 v
  | .rDutyIntClear => .busRead .duty 0x0CC 32
  | .wDutyIntClear v => .busWrite .duty 0x0CC 32 v
  | .rMcmpTmrCfg t => .busRead .mcmp (4 * t.val) 32
  | .wMcmpTmrCfg t v => .busWrite .mcmp (4 * t.val) 32 v
  | .rMcmpOpMode o => .busRead .mcmp (0x040 + 16 * o.val) 32
  | .wMcmpOpMode o v => .busWrite .mcmp (0x040 + 16 * o.val) 32 v
  | .rMcmpOpCmpa o => .busRead .mcmp (0x044 + 16 * o.val) 32
  | .wMcmpOpCmpa o v => .busWrite .mcmp (0x044 + 16 * o.val) 32 v
  | .rMcmpOpCmpb o => .busRead .mcmp (0x048 + 16 * o.val) 32
  | .wMcmpOpCmpb o v => .busWrite .mcmp (0x048 + 16 * o.val) 32 v
  | .rStrmChConf n => .busRead .strm (16 * n.val) 32
  | .wStrmChConf n v => .busWrite .strm (16 * n.val) 32 v
  | .rStrmIntRaw => .busRead .strm 0x0C0 32
  | .wStrmIntRaw v => .busWrite .strm 0x0C0 32 v
  | .rStrmIntStatus => .busRead .strm 0x0C4 32
  | .wStrmIntStatus v => .busWrite .strm 0x0C4 32 v
  | .rStrmIntEnable => .busRead .strm 0x0C8 32
  | .wStrmIntEnable v => .busWrite .strm 0x0C8 32 v
  | .rStrmIntClear => .busRead .strm 0x0CC 32
  | .wStrmIntClear v => .busWrite .strm 0x0CC 32 v
  | .rStrmRam n i => .busRead .strm (0x400 + 256 * n.val + 4 * i.val) 32
  | .wStrmRam n i v => .busWrite .strm (0x400 + 256 * n.val + 4 * i.val) 32 v
  | .rUnmapped win off => .busRead win off.toNat 32
  | .wUnmapped win off v => .busWrite win off.toNat 32 v
  | .pinIn p v => .pinIn p.val v.toNat
  | .announce sig level param => .announce sig.val level.toNat param
  | .advance t => .advance t
  | .fireDuty n => .fireDuty n.val
  | .fireMcmp o k => .fireMcmp o.val k.val
  | .fireStrm n => .fireStrm n.val
  | .reset => .reset

/-- R106: the request whose encoding is the bits `w`: the selector in bits 14:0, bit 15 zero, and for a write the data
word in bits 47:16 (log entry 9). -/
def requestOfBits (w : Nat) : Request :=
  if 2 ^ 48 ≤ w || w.testBit 15 then .junk w
  else
    let win := Window.ofCode (w / 2 ^ 12)
    let off := w % 2 ^ 12
    if w.testBit 14 then .busWrite win off 32 (BitVec.ofNat 32 (w / 2 ^ 16)) else .busRead win off 32

/-- The instruction the decoder reads from the bits `w`, of which the opcode table gives `nbits`; every bit above them
is 0. -/
def decodeTableWord (nbits w : Nat) : Option Instr := (decode (requestOfBits (w % 2 ^ nbits))).toOption

end Sys2Proof
end

