-- ==== Sys2Proof/Machine/State.lean ====
section
/-! DEFINITION. The state of the block as plain data (10_state.md R20 to R53), the reasons a step can stop, and the state
after reset (10_state.md R50). A one-bit field is a `Bool` (true is 1). -/

namespace Sys2Proof.Machine

/-- The name of a channel's single schedule slot (10_state.md R24). -/
inductive Token where
  | duty (n : DutyIx)
  | mcmp (o : OpIx) (k : OutIx)
  | strm (n : StrmIx)
  deriving DecidableEq, Repr

/-- A GPIO interrupt context (10_state.md R27). -/
inductive Ctx where
  | a
  | b
  deriving DecidableEq, Repr

/-- Which compare value drives an output: the bit `src` of 10_state.md R40, 0 for A and 1 for B. -/
inductive Cmp where
  | a
  | b
  deriving DecidableEq, Repr

/-- The deadlines: one slot per token, `none` for un-armed (10_state.md R24). -/
structure Sched where
  duty : Vector (Option Nat) 8
  mcmp : Vector (Vector (Option Nat) 2) 3
  strm : Vector (Option Nat) 4
  deriving DecidableEq, Repr

/-- A latch group: the raw and the enable vector of 41_interrupt_latch.md R130. The status is derived (R131). -/
structure Latch (w : Nat) where
  raw : BitVec w
  enable : BitVec w
  deriving DecidableEq, Repr

/-- An output-select entry (10_state.md R30). -/
structure OutSel where
  sel : BitVec 8
  force : Bool
  fval : Bool
  deriving DecidableEq, Repr

/-- An input-select entry (10_state.md R31). -/
structure InSel where
  pin : BitVec 6
  inv : Bool
  force : Bool
  fval : Bool
  deriving DecidableEq, Repr

/-- The `GPIO` state: levels (R25), trigger types (R26), the latch groups of contexts A and B whose enable vectors are the
gate bits (R27, R28; 41_interrupt_latch.md R141), and the routing tables (R30, R31). Bit p of a 49-bit vector is pin p. -/
structure Gpio where
  level : BitVec 49
  trig : Vector (BitVec 3) 49
  ctxA : Latch 49
  ctxB : Latch 49
  outsel : Vector OutSel 49
  insel : Vector InSel 256
  deriving DecidableEq, Repr

/-- A duty channel: configuration (R33), duty count (R34), fade parameters (R35), hidden state (R36). -/
structure DutyCh where
  res : BitVec 5
  clkSel : Bool
  div : BitVec 18
  en : Bool
  duty : BitVec 32
  step : BitVec 10
  cycles : BitVec 10
  num : BitVec 10
  dir : Bool
  running : Bool
  phase : Bool
  remain : BitVec 10
  cyc : BitVec 10
  deriving DecidableEq, Repr

/-- The `DUTY` state: eight channels and the latch group of R37. -/
structure Duty where
  ch : Vector DutyCh 8
  latch : Latch 8
  deriving DecidableEq, Repr

/-- A compare-unit timer (10_state.md R38). -/
structure Tmr where
  presc : BitVec 8
  period : BitVec 16
  deriving DecidableEq, Repr

/-- An operator's compare values and mode bits (10_state.md R39). -/
structure Oper where
  cmpa : BitVec 16
  cmpb : BitVec 16
  aSwap : Bool
  bSwap : Bool
  deriving DecidableEq, Repr

/-- The hidden state of an output channel (10_state.md R40). -/
structure OutCh where
  running : Bool
  phase : Bool
  src : Cmp
  deriving DecidableEq, Repr

/-- The `MCMP` state; it has no latch group (10_state.md R41). -/
structure Mcmp where
  tmr : Vector Tmr 3
  op : Vector Oper 3
  out : Vector (Vector OutCh 2) 3
  deriving DecidableEq, Repr

/-- A streaming channel: configuration (R42), ring (R43), hidden state (R44). -/
structure StrmCh where
  div : BitVec 8
  burst : BitVec 8
  en : Bool
  ring : Vector Word 64
  running : Bool
  cursor : BitVec 6
  sent : Nat
  pending : Bool
  deriving DecidableEq, Repr

/-- The `STRM` state: four channels and the latch group of R45. -/
structure Strm where
  ch : Vector StrmCh 4
  latch : Latch 16
  deriving DecidableEq, Repr

/-- The tuple a transfer sink is handed: two polarities and two scaled lengths (46_stream_waveform.md R282, R283). -/
structure SinkItem where
  polA : Bool
  lenA : Nat
  polB : Bool
  lenB : Nat
  deriving DecidableEq, Repr

/-- An event of the output trace (10_state.md R52). -/
inductive Event where
  | pinOut (p : PinIx) (level : Bool) (param : Option Word)
  | sinkXfer (n : StrmIx) (item : SinkItem)
  | warn (n : StrmIx)
  deriving DecidableEq, Repr

/-- The state of the block (10_state.md R20) and, after it, the model's own three fields. -/
structure State where
  /-- Virtual time (R23). -/
  now : Nat
  /-- The deadlines (R24). -/
  sched : Sched
  gpio : Gpio
  duty : Duty
  mcmp : Mcmp
  strm : Strm
  /-- The output trace, oldest event first (R52). -/
  trace : List Event
  /-- MODEL: the open parameters of 00_scope.md R8; no operation changes them (log entry 4). -/
  params : Params
  /-- MODEL: the word the last bus read returned (log entry 3). -/
  busData : Option Word
  /-- MODEL: the operations the agents offer next, oldest first (log entry 1). -/
  inbox : List Request
  deriving DecidableEq, Repr

/-- The faults. 60_exceptions.md R320: the block raises no exception, fault or bus error. -/
inductive Fault where
  /-- The bus error that R320 rules out. No operation raises it (log entry 12); safe. -/
  | busError
  deriving DecidableEq, Repr

/-- The refusals: an operation the block has no transition for. -/
inductive Refusal where
  /-- `exec`'s arms for an instruction without a meaning; no arm uses it. Safe. -/
  | notModelled (mnemonic : String)
  /-- `step`, for a request that is no operation of the block (20_memory.md R61, R64; log entry 7). Safe. -/
  | notAnOperation (why : Reject)
  /-- `ADVANCE(t)` with t before `now` or past a deadline: not enabled (47_virtual_clock.md R302; log entry 8). Safe. -/
  | advanceNotEnabled
  /-- `FIRE(tok)` with `sched[tok]` not `now`: not enabled (47_virtual_clock.md R303; log entry 8). Safe. -/
  | fireNotEnabled
  deriving DecidableEq, Repr

/-- No token has a deadline (10_state.md R50). -/
def Sched.empty : Sched where
  duty := Vector.replicate 8 none
  mcmp := Vector.replicate 3 (Vector.replicate 2 none)
  strm := Vector.replicate 4 none

/-- A latch group with nothing raised and nothing enabled (10_state.md R50). -/
def Latch.zero (w : Nat) : Latch w := ⟨0, 0⟩

/-- Reset value of an output-select entry, word 0x00000100: forced to 0 (10_state.md R50). -/
def OutSel.atReset : OutSel := ⟨0, true, false⟩

/-- Reset value of an input-select entry, word 0x00000080: forced to 0 (10_state.md R50). -/
def InSel.atReset : InSel := ⟨0, false, true, false⟩

/-- `GPIO` after reset (10_state.md R50). -/
def Gpio.atReset : Gpio where
  level := 0
  trig := Vector.replicate 49 0
  ctxA := Latch.zero 49
  ctxB := Latch.zero 49
  outsel := Vector.replicate 49 OutSel.atReset
  insel := Vector.replicate 256 InSel.atReset

/-- A duty channel after reset: INERT, LOW, every field 0 (10_state.md R50). -/
def DutyCh.atReset : DutyCh := ⟨0, false, 0, false, 0, 0, 0, 0, false, false, false, 0, 0⟩

/-- `DUTY` after reset (10_state.md R50). -/
def Duty.atReset : Duty := ⟨Vector.replicate 8 DutyCh.atReset, Latch.zero 8⟩

/-- `MCMP` after reset (10_state.md R50). -/
def Mcmp.atReset : Mcmp where
  tmr := Vector.replicate 3 ⟨0, 0⟩
  op := Vector.replicate 3 ⟨0, 0, false, false⟩
  out := Vector.replicate 3 (Vector.replicate 2 ⟨false, false, .a⟩)

/-- A streaming channel after reset: stopped, every ring word a sentinel (10_state.md R50). -/
def StrmCh.atReset : StrmCh := ⟨0, 0, false, Vector.replicate 64 0, false, 0, 0, false⟩

/-- `STRM` after reset (10_state.md R50). -/
def Strm.atReset : Strm := ⟨Vector.replicate 4 StrmCh.atReset, Latch.zero 16⟩

/-- The block at instantiation, which counts as a reset (70_reset_and_hazards.md R350), under the parameters `P`, with the
values of `now` and of the trace that log entries 5 and 6 name. -/
def State.initial (P : Params) : State where
  now := 0
  sched := Sched.empty
  gpio := Gpio.atReset
  duty := Duty.atReset
  mcmp := Mcmp.atReset
  strm := Strm.atReset
  trace := []
  params := P
  busData := none
  inbox := []

/-- The machine right after reset, under the reference parameters of 00_scope.md R8 (log entry 4). -/
def State.reset : State := State.initial Params.reference

/-! The updates of one part of the state. -/

def State.withNow (s : State) (t : Nat) : State := { s with now := t }
def State.withSched (s : State) (x : Sched) : State := { s with sched := x }
def State.withGpio (s : State) (x : Gpio) : State := { s with gpio := x }
def State.withDuty (s : State) (x : Duty) : State := { s with duty := x }
def State.withMcmp (s : State) (x : Mcmp) : State := { s with mcmp := x }
def State.withStrm (s : State) (x : Strm) : State := { s with strm := x }
def State.withTrace (s : State) (x : List Event) : State := { s with trace := x }
def State.withBusData (s : State) (x : Option Word) : State := { s with busData := x }
def State.withInbox (s : State) (x : List Request) : State := { s with inbox := x }

end Sys2Proof.Machine
end

