-- ==== Sys2Proof/Machine/Operands.lean ====
section
/-! DEFINITION. The field layouts of 30_encoding.md R94 and R99 to R102: how a written word is split into fields (R91) and
how a read assembles a word from fields, with 0 at every reserved position (R92, R93). -/

namespace Sys2Proof.Machine

/-- The field of `w` bits of `v` whose lowest bit is `lo` (00_scope.md R12). -/
def fieldOf (v : Word) (lo w : Nat) : BitVec w := v.extractLsb' lo w

/-- R94: the `_LO` word of a 49-bit pin vector. -/
def pinsLo (x : BitVec 49) : Word := x.extractLsb' 0 32

/-- R94: the `_HI` word of a 49-bit pin vector; bits 31:17 are reserved. -/
def pinsHi (x : BitVec 49) : Word := 0#15 ++ x.extractLsb' 32 17

/-- R94: the pin vector with pins 31:0 taken from a `_LO` word. -/
def setPinsLo (x : BitVec 49) (v : Word) : BitVec 49 := x.extractLsb' 32 17 ++ v

/-- R94: the pin vector with pins 48:32 taken from a `_HI` word. -/
def setPinsHi (x : BitVec 49) (v : Word) : BitVec 49 := fieldOf v 0 17 ++ x.extractLsb' 0 32

/-- R99: `PINp_CFG` = {`ENA_B`, `ENA_A`, `TRIG`}. -/
def pinCfgWord (trig : BitVec 3) (enaA enaB : Bool) : Word := 0#27 ++ BitVec.ofBool enaB ++ BitVec.ofBool enaA ++ trig

/-- R99: `OUTSELp` = {`FVAL`, `FORCE`, `SEL`}. -/
def outSelWord (e : OutSel) : Word := 0#22 ++ BitVec.ofBool e.fval ++ BitVec.ofBool e.force ++ e.sel

/-- R99: the entry a written `OUTSELp` word gives. -/
def outSelOf (v : Word) : OutSel := ⟨fieldOf v 0 8, v.getLsbD 8, v.getLsbD 9⟩

/-- R99: `INSELs` = {`FVAL`, `FORCE`, `INV`, `PIN`}. -/
def inSelWord (e : InSel) : Word :=
  0#23 ++ BitVec.ofBool e.fval ++ BitVec.ofBool e.force ++ BitVec.ofBool e.inv ++ e.pin

/-- R99: the entry a written `INSELs` word gives. -/
def inSelOf (v : Word) : InSel := ⟨fieldOf v 0 6, v.getLsbD 6, v.getLsbD 7, v.getLsbD 8⟩

/-- R100: `DUTY.CHn_CONF` = {`EN`, 0[6:0], `DIV`, `CLK_SEL`, `RES`}. -/
def dutyConfWord (c : DutyCh) : Word := BitVec.ofBool c.en ++ 0#7 ++ c.div ++ BitVec.ofBool c.clkSel ++ c.res

/-- R100: the channel with the fields of a written `CHn_CONF` word. -/
def setDutyConf (c : DutyCh) (v : Word) : DutyCh :=
  { c with res := fieldOf v 0 5, clkSel := v.getLsbD 5, div := fieldOf v 6 18, en := v.getLsbD 31 }

/-- R100: `DUTY.CHn_FADE` = {0, `DIR`, `NUM`, `CYCLES`, `STEP`}. -/
def dutyFadeWord (c : DutyCh) : Word := 0#1 ++ BitVec.ofBool c.dir ++ c.num ++ c.cycles ++ c.step

/-- R100: the channel with the fields of a written `CHn_FADE` word. -/
def setDutyFade (c : DutyCh) (v : Word) : DutyCh :=
  { c with step := fieldOf v 0 10, cycles := fieldOf v 10 10, num := fieldOf v 20 10, dir := v.getLsbD 30 }

/-- R100: a `DUTY` latch word: bit n is channel n, bits 31:8 reserved. -/
def dutyLatchWord (x : BitVec 8) : Word := 0#24 ++ x

/-- R101, 10_state.md R45: the implemented bits of the `STRM` latch group, 3:0 and 11:8. -/
def strmLatchMask : BitVec 16 := 0x0F0F

/-- R101: a `STRM` latch word: `DONE(n)` at bit n, `THR(n)` at bit 8+n, the others reserved. -/
def strmLatchWord (x : BitVec 16) : Word := 0#16 ++ (x &&& strmLatchMask)

/-- R101: the implemented bits of a written `STRM` latch word. -/
def strmLatchOf (v : Word) : BitVec 16 := fieldOf v 0 16 &&& strmLatchMask

/-- R101: `STRM.CHn_CONF` = {`EN`, 0[14:0], `BURST`, `DIV`}. -/
def strmConfWord (c : StrmCh) : Word := BitVec.ofBool c.en ++ 0#15 ++ c.burst ++ c.div

/-- R101: the channel with the fields of a written `CHn_CONF` word. -/
def setStrmConf (c : StrmCh) (v : Word) : StrmCh :=
  { c with div := fieldOf v 0 8, burst := fieldOf v 8 8, en := v.getLsbD 31 }

/-- 46_stream_waveform.md R266: the length of phase A of a ring word. -/
def perA (w : Word) : BitVec 15 := fieldOf w 0 15
/-- R266: the polarity of phase A. -/
def polA (w : Word) : Bool := w.getLsbD 15
/-- R266: the length of phase B. -/
def perB (w : Word) : BitVec 15 := fieldOf w 16 15
/-- R266: the polarity of phase B. -/
def polB (w : Word) : Bool := w.getLsbD 31

/-- 46_stream_waveform.md R267: both lengths are zero, whatever the polarities. -/
def isSentinel (w : Word) : Bool := perA w == 0 && perB w == 0

/-- R102: `TMRt_CFG` = {`PERIOD`, `PRESC`}. -/
def tmrWord (t : Tmr) : Word := 0#8 ++ t.period ++ t.presc

/-- R102: the timer a written `TMRt_CFG` word gives. -/
def tmrOf (v : Word) : Tmr := ⟨fieldOf v 0 8, fieldOf v 8 16⟩

/-- R102: `OPo_MODE` = {`B_SWAP`, `A_SWAP`}. -/
def modeWord (o : Oper) : Word := 0#30 ++ BitVec.ofBool o.bSwap ++ BitVec.ofBool o.aSwap

/-- R102: a compare word, 16 bits. -/
def cmpWord (c : BitVec 16) : Word := 0#16 ++ c

/-- 44_duty_timer.md R219: the percent readback of a duty count under a resolution, 0 to 100. -/
def percent (duty : Nat) (res : Nat) : Nat := if res = 0 then 0 else min 100 (100 * duty / (2 ^ res - 1))

/-- 20_memory.md R63: byte k of a word is its bits 8k+7 down to 8k. -/
def byteOf (w : Word) (k : Fin 4) : Byte := w.extractLsb' (8 * k.val) 8

end Sys2Proof.Machine
end

