-- ==== Sys2Proof/Machine/Flags.lean ====
section
/-! DEFINITION. The block's flags: the latch group component of 41_interrupt_latch.md R130 to R137, its `GPIO` predicate
(R140) and the interrupt lines (R132). -/

namespace Sys2Proof.Machine

/-- R131: `status = raw & enable`, bit by bit. -/
def Latch.status {w : Nat} (l : Latch w) : BitVec w := l.raw &&& l.enable

/-- R132: the group's share of its peripheral's line. -/
def Latch.active {w : Nat} (l : Latch w) : Bool := l.status != 0

/-- R133: `HwSet(G, b)`, whatever the enable mask. -/
def Latch.hwSet {w : Nat} (l : Latch w) (b : Nat) : Latch w := { l with raw := l.raw ||| BitVec.twoPow w b }

/-- R134: an `ENABLE` write. -/
def Latch.setEnable {w : Nat} (l : Latch w) (e : BitVec w) : Latch w := { l with enable := e }

/-- R135: a `CLEAR` write with the mask `m`, where bit b of `still` is `StillTrue(G, b)`. -/
def Latch.clear {w : Nat} (l : Latch w) (m still : BitVec w) : Latch w := { l with raw := l.raw &&& ~~~(m &&& ~~~still) }

/-- The latch group of a context. -/
def Gpio.latch (g : Gpio) (c : Ctx) : Latch 49 :=
  match c with
  | .a => g.ctxA
  | .b => g.ctxB

/-- The `GPIO` state with the latch group of a context replaced. -/
def Gpio.setLatch (g : Gpio) (c : Ctx) (l : Latch 49) : Gpio :=
  match c with
  | .a => { g with ctxA := l }
  | .b => { g with ctxB := l }

/-- R140: `StillTrue(GPIO.c, p)`, the same for both contexts, from the present trigger type and level. -/
def Gpio.stillTrue (g : Gpio) (p : PinIx) : Bool :=
  (g.trig.get p == 4 && !g.level.getLsbD p.val) || (g.trig.get p == 5 && g.level.getLsbD p.val)

/-- R140 for every pin at once. -/
def Gpio.stillTrueMask (g : Gpio) : BitVec 49 := BitVec.ofFnLE g.stillTrue

/-- R132: the `GPIO` line, the OR over both contexts. -/
def State.gpioIrq (s : State) : Bool := s.gpio.ctxA.active || s.gpio.ctxB.active

/-- R132: the `DUTY` line. -/
def State.dutyIrq (s : State) : Bool := s.duty.latch.active

/-- 10_state.md R41: the `MCMP` line is the constant 0. -/
def State.mcmpIrq (_ : State) : Bool := false

/-- R132: the `STRM` line. -/
def State.strmIrq (s : State) : Bool := s.strm.latch.active

/-- 42_gpio_trigger.md R160: the trigger decision for a type, an old level and a new level. -/
def fires (type : BitVec 3) (l0 l1 : Bool) : Bool :=
  match type.toNat with
  | 1 => !l0 && l1
  | 2 => l0 && !l1
  | 3 => l0 != l1
  | 4 => !l1
  | 5 => l1
  | _ => false

end Sys2Proof.Machine
end

