-- ==== Sys2Proof/Machine/Ops.lean ====
section
/-! DEFINITION. The shared operations: the answer of a bus read, `Arm` and `Cancel` (47_virtual_clock.md R304, R305), the
enabling conditions of the clock operations (R302, R303), `Emit` and `Announce` (10_state.md R52, 43_gpio_crossbar.md R190),
the crossbar's derived outputs (R192, R193), `SetLevel` (42_gpio_trigger.md R165), and the on and off times both toggling
engines share (44_duty_timer.md R206, 47_virtual_clock.md R306).

The block takes no exception and returns from none: it raises no exception, fault or bus error (60_exceptions.md R320), it
saves nothing when it raises a line (R327) and a line is lowered by ordinary writes (R328). There is no such operation. -/

namespace Sys2Proof.Machine

/-- 40_bus_dispatch.md R120: a bus read returns a word and changes nothing of the block. -/
def State.respond (s : State) (w : Word) : State := s.withBusData (some w)

/-- 10_state.md R24: the deadline of a token. -/
def Sched.get (x : Sched) (tok : Token) : Option Nat :=
  match tok with
  | .duty n => x.duty.get n
  | .mcmp o k => (x.mcmp.get o).get k
  | .strm n => x.strm.get n

/-- The schedule with one token's slot replaced. -/
def Sched.set (x : Sched) (tok : Token) (d : Option Nat) : Sched :=
  match tok with
  | .duty n => { x with duty := Vector.set x.duty n.val d }
  | .mcmp o k => { x with mcmp := Vector.set x.mcmp o.val (Vector.set (x.mcmp.get o) k.val d) }
  | .strm n => { x with strm := Vector.set x.strm n.val d }

/-- Every token (10_state.md R24). -/
def Token.all : List Token :=
  (List.finRange 8).map Token.duty ++
    (List.finRange 3).flatMap (fun o => (List.finRange 2).map (Token.mcmp o)) ++ (List.finRange 4).map Token.strm

/-- R304: `Arm(tok, d)`. -/
def State.arm (s : State) (tok : Token) (d : Nat) : State := s.withSched (s.sched.set tok (some (s.now + d)))

/-- R305: `Cancel(tok)`. -/
def State.cancel (s : State) (tok : Token) : State := s.withSched (s.sched.set tok none)

/-- R303: a token is due, so that its `FIRE` is enabled. -/
def State.due (s : State) (tok : Token) : Bool := s.sched.get tok == some s.now

/-- R302: `ADVANCE(t)` is enabled: t is not before `now` and passes no deadline. -/
def State.advanceEnabled (s : State) (t : Nat) : Bool :=
  decide (s.now ≤ t) &&
    Token.all.all (fun tok =>
      match s.sched.get tok with
      | some d => decide (t ≤ d)
      | none => true)

/-- 10_state.md R52: `Emit` of a list of events, in order. -/
def State.emit (s : State) (es : List Event) : State := s.withTrace (s.trace ++ es)

/-- 43_gpio_crossbar.md R190: the pins bound to an output signal, in ascending order. -/
def Gpio.boundPins (g : Gpio) (sig : Nat) : List PinIx :=
  (List.finRange 49).filter (fun p => !(g.outsel.get p).force && (g.outsel.get p).sel.toNat == sig)

/-- R190: `Announce(sig, level, param)`. -/
def State.announce (s : State) (sig : Nat) (level : Bool) (param : Option Word) : State :=
  s.emit ((s.gpio.boundPins sig).map (fun p => .pinOut p level param))

/-- 43_gpio_crossbar.md R192: the constant that drives a forced pin. -/
def State.pinForced (s : State) (p : PinIx) : Option Bool :=
  if (s.gpio.outsel.get p).force then some (s.gpio.outsel.get p).fval else none

/-- 43_gpio_crossbar.md R193: the level on a logical input signal. A pin index of 49 to 63 reads as level 0. -/
def State.inSignal (s : State) (sig : SigIx) : Bool :=
  if (s.gpio.insel.get sig).force then (s.gpio.insel.get sig).fval
  else (s.gpio.level.getLsbD (s.gpio.insel.get sig).pin.toNat) ^^ (s.gpio.insel.get sig).inv

/-- Bit `p` of a pin vector set to `v`. -/
def setPin (x : BitVec 49) (p : PinIx) (v : Bool) : BitVec 49 :=
  if v then x ||| BitVec.twoPow 49 p.val else x &&& ~~~(BitVec.twoPow 49 p.val)

/-- 42_gpio_trigger.md R165: a fire latches the pin in both contexts. -/
def Gpio.latchPin (g : Gpio) (p : PinIx) : Gpio := { g with ctxA := g.ctxA.hwSet p.val, ctxB := g.ctxB.hwSet p.val }

/-- 42_gpio_trigger.md R165: `SetLevel(p, v)`. -/
def Gpio.setLevel (g : Gpio) (p : PinIx) (v : Bool) : Gpio :=
  if g.level.getLsbD p.val = v then g
  else if fires (g.trig.get p) (g.level.getLsbD p.val) v then
    Gpio.latchPin { g with level := setPin g.level p v } p
  else { g with level := setPin g.level p v }

/-- R167, R168: `SetLevel` on each pin of a list, in order, to its bit of `x`. -/
def Gpio.setLevels (g : Gpio) (ps : List PinIx) (x : BitVec 49) : Gpio :=
  ps.foldl (fun g p => g.setLevel p (x.getLsbD p.val)) g

/-- The pins 0 to 31 of a `_LO` word, ascending (30_encoding.md R94). -/
def loPins : List PinIx := (List.finRange 49).filter (fun p => decide (p.val < 32))

/-- The pins 32 to 48 of a `_HI` word, ascending (30_encoding.md R94). -/
def hiPins : List PinIx := (List.finRange 49).filter (fun p => decide (32 ≤ p.val))

/-- 44_duty_timer.md R206, 45_multi_timer_compare.md R242: the on and off times of a toggling channel with divider `div`,
count `maxc`, duty count `d` and clock `clk`; `none` is INERT. The clamp keeps both phases at least `EPS` long; a period
below two `EPS` is inert (R208). -/
def toggleTimes (clk div maxc d : Nat) : Option (Nat × Nat) :=
  if clk = 0 ∨ div = 0 ∨ maxc = 0 then none
  else
    let period := div * maxc * Config.unitsPerSecond / clk
    if period < 2 * Config.eps then none
    else
      let on := min (max (d * period / maxc) Config.eps) (period - Config.eps)
      some (on, period - on)

end Sys2Proof.Machine
end

