-- ==== Sys2Proof/Machine/Gpio.lean ====
section
/-! DEFINITION. The `GPIO` peripheral's register operations: pin levels and pin configuration (42_gpio_trigger.md), the two
latch groups (41_interrupt_latch.md) and the routing tables (43_gpio_crossbar.md). -/

namespace Sys2Proof.Machine

/-- A bus operation always completes (40_bus_dispatch.md R120, R121; 60_exceptions.md R320). -/
abbrev Result := Host.Outcome State Fault Refusal

/-! Pin levels. -/

/-- `R GPIO.LEVEL_LO` (42_gpio_trigger.md R170). -/
def execRGpioLevelLo (s : State) : Result := .next (s.respond (pinsLo s.gpio.level))

/-- `R GPIO.LEVEL_HI` (R170). -/
def execRGpioLevelHi (s : State) : Result := .next (s.respond (pinsHi s.gpio.level))

/-- `W GPIO.LEVEL_LO` (42_gpio_trigger.md R167): `SetLevel` on pins 0 to 31, ascending. -/
def execWGpioLevelLo (v : Word) (s : State) : Result :=
  .next (s.withGpio (s.gpio.setLevels loPins (setPinsLo s.gpio.level v)))

/-- `W GPIO.LEVEL_HI` (42_gpio_trigger.md R168): `SetLevel` on pins 32 to 48, ascending. -/
def execWGpioLevelHi (v : Word) (s : State) : Result :=
  .next (s.withGpio (s.gpio.setLevels hiPins (setPinsHi s.gpio.level v)))

/-! The latch groups of contexts A and B. -/

/-- The read of a latch word of a context (41_interrupt_latch.md R144). -/
def readLatch (c : Ctx) (view : Latch 49 → BitVec 49) (half : BitVec 49 → Word) (s : State) : Result :=
  .next (s.respond (half (view (s.gpio.latch c))))

/-- The write of an enable word of a context (41_interrupt_latch.md R142); the evaluator does not run. -/
def writeEnable (c : Ctx) (half : BitVec 49 → Word → BitVec 49) (v : Word) (s : State) : Result :=
  .next (s.withGpio (s.gpio.setLatch c ((s.gpio.latch c).setEnable (half (s.gpio.latch c).enable v))))

/-- The write of a clear mask of a context (41_interrupt_latch.md R143). -/
def writeClear (c : Ctx) (half : BitVec 49 → Word → BitVec 49) (v : Word) (s : State) : Result :=
  .next (s.withGpio (s.gpio.setLatch c ((s.gpio.latch c).clear (half 0 v) s.gpio.stillTrueMask)))

/-- A write to a read-only register is dropped (40_bus_dispatch.md R124). -/
def dropWrite (_ : Word) (s : State) : Result := .next s

/-- A read of a write-only register returns 0 (40_bus_dispatch.md R124). -/
def readZero (s : State) : Result := .next (s.respond 0)

/-- `R GPIO.A_RAW_LO` (R144). -/
def execRGpioARawLo (s : State) : Result := readLatch .a Latch.raw pinsLo s

/-- `R GPIO.A_RAW_HI` (R144). -/
def execRGpioARawHi (s : State) : Result := readLatch .a Latch.raw pinsHi s

/-- `R GPIO.A_STATUS_LO` (R144). -/
def execRGpioAStatusLo (s : State) : Result := readLatch .a Latch.status pinsLo s

/-- `R GPIO.A_STATUS_HI` (R144). -/
def execRGpioAStatusHi (s : State) : Result := readLatch .a Latch.status pinsHi s

/-- `R GPIO.A_ENABLE_LO` (R144). -/
def execRGpioAEnableLo (s : State) : Result := readLatch .a Latch.enable pinsLo s

/-- `R GPIO.A_ENABLE_HI` (R144). -/
def execRGpioAEnableHi (s : State) : Result := readLatch .a Latch.enable pinsHi s

/-- `W GPIO.A_RAW_LO` (40_bus_dispatch.md R124). -/
def execWGpioARawLo (v : Word) (s : State) : Result := dropWrite v s

/-- `W GPIO.A_RAW_HI` (40_bus_dispatch.md R124). -/
def execWGpioARawHi (v : Word) (s : State) : Result := dropWrite v s

/-- `W GPIO.A_STATUS_LO` (40_bus_dispatch.md R124). -/
def execWGpioAStatusLo (v : Word) (s : State) : Result := dropWrite v s

/-- `W GPIO.A_STATUS_HI` (40_bus_dispatch.md R124). -/
def execWGpioAStatusHi (v : Word) (s : State) : Result := dropWrite v s

/-- `W GPIO.A_ENABLE_LO` (R142). -/
def execWGpioAEnableLo (v : Word) (s : State) : Result := writeEnable .a setPinsLo v s

/-- `W GPIO.A_ENABLE_HI` (R142). -/
def execWGpioAEnableHi (v : Word) (s : State) : Result := writeEnable .a setPinsHi v s

/-- `R GPIO.A_CLEAR_LO` (40_bus_dispatch.md R124). -/
def execRGpioAClearLo (s : State) : Result := readZero s

/-- `R GPIO.A_CLEAR_HI` (40_bus_dispatch.md R124). -/
def execRGpioAClearHi (s : State) : Result := readZero s

/-- `W GPIO.A_CLEAR_LO` (R143). -/
def execWGpioAClearLo (v : Word) (s : State) : Result := writeClear .a setPinsLo v s

/-- `W GPIO.A_CLEAR_HI` (R143). -/
def execWGpioAClearHi (v : Word) (s : State) : Result := writeClear .a setPinsHi v s

/-- `R GPIO.B_RAW_LO` (R144). -/
def execRGpioBRawLo (s : State) : Result := readLatch .b Latch.raw pinsLo s

/-- `R GPIO.B_RAW_HI` (R144). -/
def execRGpioBRawHi (s : State) : Result := readLatch .b Latch.raw pinsHi s

/-- `R GPIO.B_STATUS_LO` (R144). -/
def execRGpioBStatusLo (s : State) : Result := readLatch .b Latch.status pinsLo s

/-- `R GPIO.B_STATUS_HI` (R144). -/
def execRGpioBStatusHi (s : State) : Result := readLatch .b Latch.status pinsHi s

/-- `R GPIO.B_ENABLE_LO` (R144). -/
def execRGpioBEnableLo (s : State) : Result := readLatch .b Latch.enable pinsLo s

/-- `R GPIO.B_ENABLE_HI` (R144). -/
def execRGpioBEnableHi (s : State) : Result := readLatch .b Latch.enable pinsHi s

/-- `W GPIO.B_RAW_LO` (40_bus_dispatch.md R124). -/
def execWGpioBRawLo (v : Word) (s : State) : Result := dropWrite v s

/-- `W GPIO.B_RAW_HI` (40_bus_dispatch.md R124). -/
def execWGpioBRawHi (v : Word) (s : State) : Result := dropWrite v s

/-- `W GPIO.B_STATUS_LO` (40_bus_dispatch.md R124). -/
def execWGpioBStatusLo (v : Word) (s : State) : Result := dropWrite v s

/-- `W GPIO.B_STATUS_HI` (40_bus_dispatch.md R124). -/
def execWGpioBStatusHi (v : Word) (s : State) : Result := dropWrite v s

/-- `W GPIO.B_ENABLE_LO` (R142). -/
def execWGpioBEnableLo (v : Word) (s : State) : Result := writeEnable .b setPinsLo v s

/-- `W GPIO.B_ENABLE_HI` (R142). -/
def execWGpioBEnableHi (v : Word) (s : State) : Result := writeEnable .b setPinsHi v s

/-- `R GPIO.B_CLEAR_LO` (40_bus_dispatch.md R124). -/
def execRGpioBClearLo (s : State) : Result := readZero s

/-- `R GPIO.B_CLEAR_HI` (40_bus_dispatch.md R124). -/
def execRGpioBClearHi (s : State) : Result := readZero s

/-- `W GPIO.B_CLEAR_LO` (R143). -/
def execWGpioBClearLo (v : Word) (s : State) : Result := writeClear .b setPinsLo v s

/-- `W GPIO.B_CLEAR_HI` (R143). -/
def execWGpioBClearHi (v : Word) (s : State) : Result := writeClear .b setPinsHi v s

/-! Pin configuration and the routing tables. -/

/-- The trigger type and the gate bits of a pin written at once (42_gpio_trigger.md R169, 41_interrupt_latch.md R141). -/
def Gpio.setPinCfg (g : Gpio) (p : PinIx) (trig : BitVec 3) (enaA enaB : Bool) : Gpio :=
  { g with
    trig := Vector.set g.trig p.val trig
    ctxA := g.ctxA.setEnable (setPin g.ctxA.enable p enaA)
    ctxB := g.ctxB.setEnable (setPin g.ctxB.enable p enaB) }

/-- `R GPIO.PINp_CFG` (42_gpio_trigger.md R170). -/
def execRGpioPinCfg (p : PinIx) (s : State) : Result :=
  .next (s.respond
    (pinCfgWord (s.gpio.trig.get p) (s.gpio.ctxA.enable.getLsbD p.val) (s.gpio.ctxB.enable.getLsbD p.val)))

/-- `W GPIO.PINp_CFG` (42_gpio_trigger.md R169): the evaluator does not run. -/
def execWGpioPinCfg (p : PinIx) (v : Word) (s : State) : Result :=
  .next (s.withGpio (s.gpio.setPinCfg p (fieldOf v 0 3) (v.getLsbD 3) (v.getLsbD 4)))

/-- `R GPIO.OUTSELp` (43_gpio_crossbar.md R188). -/
def execRGpioOutsel (p : PinIx) (s : State) : Result := .next (s.respond (outSelWord (s.gpio.outsel.get p)))

/-- `W GPIO.OUTSELp` (43_gpio_crossbar.md R186): no event, no level change. -/
def execWGpioOutsel (p : PinIx) (v : Word) (s : State) : Result :=
  .next (s.withGpio { s.gpio with outsel := Vector.set s.gpio.outsel p.val (outSelOf v) })

/-- `R GPIO.INSELs` (43_gpio_crossbar.md R188). -/
def execRGpioInsel (sig : SigIx) (s : State) : Result := .next (s.respond (inSelWord (s.gpio.insel.get sig)))

/-- `W GPIO.INSELs` (43_gpio_crossbar.md R187). -/
def execWGpioInsel (sig : SigIx) (v : Word) (s : State) : Result :=
  .next (s.withGpio { s.gpio with insel := Vector.set s.gpio.insel sig.val (inSelOf v) })

end Sys2Proof.Machine
end

