-- ==== Sys2Proof/Machine/Duty.lean ====
section
/-! DEFINITION. The duty-cycle timer engine (44_duty_timer.md): the on and off times, the start, stop and fade procedures,
and the operations of the `DUTY` window and of `FIRE DUTY(n)`. -/

namespace Sys2Proof.Machine

/-- Channel n. -/
def State.dutyCh (s : State) (n : DutyIx) : DutyCh := s.duty.ch.get n

/-- The state with channel n replaced. -/
def State.setDutyCh (s : State) (n : DutyIx) (c : DutyCh) : State :=
  s.withDuty { s.duty with ch := Vector.set s.duty.ch n.val c }

/-- `DUTY_CLK_HZ[sel]` (00_scope.md R8). -/
def dutyClk (p : Params) (sel : Bool) : Nat := if sel then p.dutyClkHz1 else p.dutyClkHz0

/-- R206: `DutyTimes` of a channel under the parameters; `none` is INERT. A resolution of 0 is inert. -/
def dutyTimes (p : Params) (c : DutyCh) : Option (Nat × Nat) :=
  toggleTimes (dutyClk p c.clkSel) c.div.toNat (if c.res = 0 then 0 else 2 ^ c.res.toNat) c.duty.toNat

/-- R211: `SetPhase(n, v)`; a change of phase is announced on the channel's signal. -/
def State.dutySetPhase (s : State) (n : DutyIx) (v : Bool) : State :=
  if (s.dutyCh n).phase = v then s
  else (s.setDutyCh n { s.dutyCh n with phase := v }).announce (s.params.dutySigBase + n.val) v none

/-- `DUTY.running[n] <- v`. -/
def State.dutySetRunning (s : State) (n : DutyIx) (v : Bool) : State := s.setDutyCh n { s.dutyCh n with running := v }

/-- R212: `DutyStart(n)`: commit and start, or re-arm. -/
def State.dutyStart (s : State) (n : DutyIx) : State :=
  match dutyTimes s.params (s.dutyCh n) with
  | none => (((s.cancel (.duty n)).dutySetRunning n false).dutySetPhase n false)
  | some (on, _) => (((s.cancel (.duty n)).dutySetRunning n true).dutySetPhase n true).arm (.duty n) on

/-- R213: `DutyStop(n)`. -/
def State.dutyStop (s : State) (n : DutyIx) : State :=
  ((s.cancel (.duty n)).dutySetRunning n false).dutySetPhase n false

/-- R215: the duty after one fade step, saturating at 0 and at `2^res` (decision D23). -/
def fadedDuty (c : DutyCh) : BitVec 32 :=
  if c.dir then BitVec.ofNat 32 (min (c.duty.toNat + c.step.toNat) (2 ^ c.res.toNat))
  else if c.step.toNat < c.duty.toNat then BitVec.ofNat 32 (c.duty.toNat - c.step.toNat)
  else 0

/-- R215: `FadeStep(n)`; fade complete is latched only if the channel's enable bit is 1 (decision D24). -/
def State.fadeStep (s : State) (n : DutyIx) : State :=
  let c := s.dutyCh n
  if c.remain = 0 ∨ c.cycles = 0 then s
  else if (c.cyc + 1).toNat < c.cycles.toNat then s.setDutyCh n { c with cyc := c.cyc + 1 }
  else
    let s' := s.setDutyCh n { c with cyc := 0, duty := fadedDuty c, remain := c.remain - 1 }
    if c.remain - 1 = 0 ∧ s.duty.latch.enable.getLsbD n.val then
      s'.withDuty { s'.duty with latch := s'.duty.latch.hwSet n.val }
    else s'

/-- R214: the callback after the toggle: times recomputed, the new phase armed, or the channel INERT. -/
def State.dutyRearm (s : State) (n : DutyIx) : State :=
  match dutyTimes s.params (s.dutyCh n) with
  | none => (s.dutySetRunning n false).dutySetPhase n false
  | some (on, off) => s.arm (.duty n) (if (s.dutyCh n).phase then on else off)

/-- R214: the channel's callback. -/
def State.dutyFire (s : State) (n : DutyIx) : State :=
  let toggled := (s.cancel (.duty n)).dutySetPhase n (!(s.dutyCh n).phase)
  (if (s.dutyCh n).phase then toggled.fadeStep n else toggled).dutyRearm n

/-- `R DUTY.CHn_CONF` (R220). -/
def execRDutyChConf (n : DutyIx) (s : State) : Result := .next (s.respond (dutyConfWord (s.dutyCh n)))

/-- `W DUTY.CHn_CONF` (R216). -/
def execWDutyChConf (n : DutyIx) (v : Word) (s : State) : Result :=
  let s' := s.setDutyCh n (setDutyConf (s.dutyCh n) v)
  .next (if (s'.dutyCh n).en then s'.dutyStart n else s'.dutyStop n)

/-- `R DUTY.CHn_DUTY` (R220). -/
def execRDutyChDuty (n : DutyIx) (s : State) : Result := .next (s.respond (s.dutyCh n).duty)

/-- `W DUTY.CHn_DUTY` (R217): a running channel is re-armed. -/
def execWDutyChDuty (n : DutyIx) (v : Word) (s : State) : Result :=
  let s' := s.setDutyCh n { s.dutyCh n with duty := v }
  .next (if (s'.dutyCh n).running then s'.dutyStart n else s')

/-- `R DUTY.CHn_FADE` (R220). -/
def execRDutyChFade (n : DutyIx) (s : State) : Result := .next (s.respond (dutyFadeWord (s.dutyCh n)))

/-- `W DUTY.CHn_FADE` (R218): the fade state is loaded, the channel is not re-armed. -/
def execWDutyChFade (n : DutyIx) (v : Word) (s : State) : Result :=
  let c := setDutyFade (s.dutyCh n) v
  .next (s.setDutyCh n { c with remain := c.num, cyc := 0 })

/-- `R DUTY.CHn_PCT` (R219). -/
def execRDutyChPct (n : DutyIx) (s : State) : Result :=
  .next (s.respond (BitVec.ofNat 32 (percent (s.dutyCh n).duty.toNat (s.dutyCh n).res.toNat)))

/-- `W DUTY.CHn_PCT`: read-only, dropped (40_bus_dispatch.md R124). -/
def execWDutyChPct (_ : DutyIx) (v : Word) (s : State) : Result := dropWrite v s

/-- `R DUTY.INT_RAW` (41_interrupt_latch.md R147). -/
def execRDutyIntRaw (s : State) : Result := .next (s.respond (dutyLatchWord s.duty.latch.raw))

/-- `W DUTY.INT_RAW`: read-only, dropped (40_bus_dispatch.md R124). -/
def execWDutyIntRaw (v : Word) (s : State) : Result := dropWrite v s

/-- `R DUTY.INT_STATUS` (41_interrupt_latch.md R147). -/
def execRDutyIntStatus (s : State) : Result := .next (s.respond (dutyLatchWord s.duty.latch.status))

/-- `W DUTY.INT_STATUS`: read-only, dropped (40_bus_dispatch.md R124). -/
def execWDutyIntStatus (v : Word) (s : State) : Result := dropWrite v s

/-- `R DUTY.INT_ENABLE` (41_interrupt_latch.md R147). -/
def execRDutyIntEnable (s : State) : Result := .next (s.respond (dutyLatchWord s.duty.latch.enable))

/-- `W DUTY.INT_ENABLE` (41_interrupt_latch.md R146). -/
def execWDutyIntEnable (v : Word) (s : State) : Result :=
  .next (s.withDuty { s.duty with latch := s.duty.latch.setEnable (fieldOf v 0 8) })

/-- `R DUTY.INT_CLEAR`: write-only, reads 0 (40_bus_dispatch.md R124). -/
def execRDutyIntClear (s : State) : Result := readZero s

/-- `W DUTY.INT_CLEAR` (41_interrupt_latch.md R145): `StillTrue` is false for every source (R139). -/
def execWDutyIntClear (v : Word) (s : State) : Result :=
  .next (s.withDuty { s.duty with latch := s.duty.latch.clear (fieldOf v 0 8) 0 })

/-- `FIRE DUTY(n)` (R214), enabled when the token is due (47_virtual_clock.md R303). -/
def execFireDuty (n : DutyIx) (s : State) : Result :=
  if s.due (.duty n) then .next (s.dutyFire n) else .refused .fireNotEnabled

end Sys2Proof.Machine
end

