-- ==== Sys2Proof/Machine/Events.lean ====
section
/-! DEFINITION. The operations that stand outside the register maps: unmapped bus accesses (40_bus_dispatch.md R122, R123),
the pin input event (42_gpio_trigger.md R166), the external announcement (43_gpio_crossbar.md R191), the passing of time
(47_virtual_clock.md R302) and the system reset (70_reset_and_hazards.md R350). -/

namespace Sys2Proof.Machine

/-- An unmapped read returns 0 (40_bus_dispatch.md R122). -/
def execRUnmapped (_ : Window) (_ : BitVec 12) (s : State) : Result := readZero s

/-- An unmapped write is dropped (40_bus_dispatch.md R123). -/
def execWUnmapped (_ : Window) (_ : BitVec 12) (v : Word) (s : State) : Result := dropWrite v s

/-- `PIN_IN(p, v)` (42_gpio_trigger.md R166). -/
def execPinIn (p : PinIx) (v : Bool) (s : State) : Result := .next (s.withGpio (s.gpio.setLevel p v))

/-- `ANNOUNCE(sig, level, param)` (43_gpio_crossbar.md R191). -/
def execAnnounce (sig : SigIx) (level : Bool) (param : Option Word) (s : State) : Result :=
  .next (s.announce sig.val level param)

/-- `ADVANCE(t)` (47_virtual_clock.md R302). -/
def execAdvance (t : Nat) (s : State) : Result :=
  if s.advanceEnabled t then .next (s.withNow t) else .refused .advanceNotEnabled

/-- R350: every piece of the block takes its value of 10_state.md R50; `now` and the trace stay, and so do the model's own
fields (log entries 1, 3 and 4). -/
def State.systemReset (s : State) : State :=
  { s with
    sched := Sched.empty
    gpio := Gpio.atReset
    duty := Duty.atReset
    mcmp := Mcmp.atReset
    strm := Strm.atReset }

/-- `RESET` (70_reset_and_hazards.md R350, R351). -/
def execReset (s : State) : Result := .next s.systemReset

end Sys2Proof.Machine
end

