-- ==== Sys2Proof/Machine/Mcmp.lean ====
section
/-! DEFINITION. The multi-timer compare engine (45_multi_timer_compare.md): the mapping of compares to outputs, the on and
off times, the arming procedure, and the operations of the `MCMP` window and of `FIRE MCMP(o,k)`. -/

namespace Sys2Proof.Machine

/-- Output channel (o,k). -/
def State.mcmpOut (s : State) (o : OpIx) (k : OutIx) : OutCh := (s.mcmp.out.get o).get k

/-- The state with output channel (o,k) replaced. -/
def State.setMcmpOut (s : State) (o : OpIx) (k : OutIx) (c : OutCh) : State :=
  s.withMcmp { s.mcmp with out := Vector.set s.mcmp.out o.val (Vector.set (s.mcmp.out.get o) k.val c) }

/-- Operator o. -/
def State.mcmpOp (s : State) (o : OpIx) : Oper := s.mcmp.op.get o

/-- The state with operator o replaced. -/
def State.setMcmpOp (s : State) (o : OpIx) (x : Oper) : State :=
  s.withMcmp { s.mcmp with op := Vector.set s.mcmp.op o.val x }

/-- R241: `OutOf(o, x)`, the output that compare x drives. -/
def Oper.outOf (op : Oper) (x : Cmp) : OutIx :=
  match x with
  | .a => if op.aSwap then 1 else 0
  | .b => if op.bSwap then 0 else 1

/-- The compare value x of an operator. -/
def Oper.cmp (op : Oper) (x : Cmp) : BitVec 16 :=
  match x with
  | .a => op.cmpa
  | .b => op.cmpb

/-- R242: `McmpTimes(o, x)`; operator o is fed by timer o (R240). -/
def State.mcmpTimes (s : State) (o : OpIx) (x : Cmp) : Option (Nat × Nat) :=
  toggleTimes s.params.mcmpClkHz (s.mcmp.tmr.get o).presc.toNat (s.mcmp.tmr.get o).period.toNat
    ((s.mcmpOp o).cmp x).toNat

/-- R245: `McmpSetPhase(o, k, v)`. -/
def State.mcmpSetPhase (s : State) (o : OpIx) (k : OutIx) (v : Bool) : State :=
  if (s.mcmpOut o k).phase = v then s
  else (s.setMcmpOut o k { s.mcmpOut o k with phase := v }).announce (s.params.mcmpSigBase + 2 * o.val + k.val) v none

/-- `MCMP.out[o][k].running <- v`. -/
def State.mcmpSetRunning (s : State) (o : OpIx) (k : OutIx) (v : Bool) : State :=
  s.setMcmpOut o k { s.mcmpOut o k with running := v }

/-- R246: `McmpArm(o, k, x)`. -/
def State.mcmpArm (s : State) (o : OpIx) (k : OutIx) (x : Cmp) : State :=
  let s' := (s.cancel (.mcmp o k)).setMcmpOut o k { s.mcmpOut o k with src := x }
  match s.mcmpTimes o x with
  | none => (s'.mcmpSetRunning o k false).mcmpSetPhase o k false
  | some (on, _) => ((s'.mcmpSetRunning o k true).mcmpSetPhase o k true).arm (.mcmp o k) on

/-- R248: the callback after the toggle: times recomputed from the recorded source, the new phase armed, or INERT. -/
def State.mcmpRearm (s : State) (o : OpIx) (k : OutIx) : State :=
  match s.mcmpTimes o (s.mcmpOut o k).src with
  | none => (s.mcmpSetRunning o k false).mcmpSetPhase o k false
  | some (on, off) => s.arm (.mcmp o k) (if (s.mcmpOut o k).phase then on else off)

/-- R248: the output's callback. -/
def State.mcmpFire (s : State) (o : OpIx) (k : OutIx) : State :=
  ((s.cancel (.mcmp o k)).mcmpSetPhase o k (!(s.mcmpOut o k).phase)).mcmpRearm o k

/-- `R MCMP.TMRt_CFG` (R249). -/
def execRMcmpTmrCfg (t : TmrIx) (s : State) : Result := .next (s.respond (tmrWord (s.mcmp.tmr.get t)))

/-- `W MCMP.TMRt_CFG` (R243): no output is armed, re-armed or cancelled. -/
def execWMcmpTmrCfg (t : TmrIx) (v : Word) (s : State) : Result :=
  .next (s.withMcmp { s.mcmp with tmr := Vector.set s.mcmp.tmr t.val (tmrOf v) })

/-- `R MCMP.OPo_MODE` (R249). -/
def execRMcmpOpMode (o : OpIx) (s : State) : Result := .next (s.respond (modeWord (s.mcmpOp o)))

/-- `W MCMP.OPo_MODE` (R244): acts on later compare writes only. -/
def execWMcmpOpMode (o : OpIx) (v : Word) (s : State) : Result :=
  .next (s.setMcmpOp o { s.mcmpOp o with aSwap := v.getLsbD 0, bSwap := v.getLsbD 1 })

/-- `R MCMP.OPo_CMPA` (R249). -/
def execRMcmpOpCmpa (o : OpIx) (s : State) : Result := .next (s.respond (cmpWord (s.mcmpOp o).cmpa))

/-- `W MCMP.OPo_CMPA` (R250): a non-zero, changed value arms the mapped output. -/
def execWMcmpOpCmpa (o : OpIx) (v : Word) (s : State) : Result :=
  let new := fieldOf v 0 16
  let s' := s.setMcmpOp o { s.mcmpOp o with cmpa := new }
  .next (if new ≠ 0 ∧ new ≠ (s.mcmpOp o).cmpa then s'.mcmpArm o ((s.mcmpOp o).outOf .a) .a else s')

/-- `R MCMP.OPo_CMPB` (R249). -/
def execRMcmpOpCmpb (o : OpIx) (s : State) : Result := .next (s.respond (cmpWord (s.mcmpOp o).cmpb))

/-- `W MCMP.OPo_CMPB` (R251): as `CMPA` with compare B. -/
def execWMcmpOpCmpb (o : OpIx) (v : Word) (s : State) : Result :=
  let new := fieldOf v 0 16
  let s' := s.setMcmpOp o { s.mcmpOp o with cmpb := new }
  .next (if new ≠ 0 ∧ new ≠ (s.mcmpOp o).cmpb then s'.mcmpArm o ((s.mcmpOp o).outOf .b) .b else s')

/-- `FIRE MCMP(o,k)` (R248), enabled when the token is due (47_virtual_clock.md R303). -/
def execFireMcmp (o : OpIx) (k : OutIx) (s : State) : Result :=
  if s.due (.mcmp o k) then .next (s.mcmpFire o k) else .refused .fireNotEnabled

end Sys2Proof.Machine
end

