-- ==== Sys2Proof/Machine/Strm.lean ====
section
/-! DEFINITION. The streaming waveform engine (46_stream_waveform.md): timing, the transfer sink, the drain with its
backpressure test, start and stop, and the operations of the `STRM` window and of `FIRE STRM(n)`. -/

namespace Sys2Proof.Machine

/-- Channel n. -/
def State.strmCh (s : State) (n : StrmIx) : StrmCh := s.strm.ch.get n

/-- The state with channel n replaced. -/
def State.setStrmCh (s : State) (n : StrmIx) (c : StrmCh) : State :=
  s.withStrm { s.strm with ch := Vector.set s.strm.ch n.val c }

/-- `HwSet(STRM, b)` (41_interrupt_latch.md R133). -/
def State.strmHwSet (s : State) (b : Nat) : State := s.withStrm { s.strm with latch := s.strm.latch.hwSet b }

/-- R268: `BitTime`, the time of one divided-clock tick. -/
def bitTime (p : Params) (c : StrmCh) : Nat := c.div.toNat * Config.unitsPerSecond / p.strmClkHz

/-- R268: `Runnable`. -/
def runnable (p : Params) (c : StrmCh) : Bool :=
  p.strmClkHz != 0 && c.div != 0 && c.burst != 0 && bitTime p c != 0

/-- R282, R283: the item of a ring word: its lengths scaled by the channel's divider. -/
def sinkItem (c : StrmCh) (w : Word) : SinkItem :=
  ⟨polA w, (perA w).toNat * c.div.toNat, polB w, (perB w).toNat * c.div.toNat⟩

/-- R283, R284: what handing a word to the sink emits. -/
def transferEvent (p : Params) (n : StrmIx) (item : SinkItem) : Event :=
  if p.sinkPresent.get n then .sinkXfer n item else .warn n

/-- R280: the ring word under the cursor. -/
def StrmCh.fetch (c : StrmCh) : Word := c.ring.get ⟨c.cursor.toNat, c.cursor.isLt⟩

/-- R281: `Blocked(n)`: the channel's completion or threshold raw bit is set. -/
def State.strmBlocked (s : State) (n : StrmIx) : Bool :=
  s.strm.latch.raw.getLsbD n.val || s.strm.latch.raw.getLsbD (8 + n.val)

/-- R280: what a tick does at a sentinel: the channel disables itself and completion latches. -/
def State.strmComplete (s : State) (n : StrmIx) : State :=
  (s.setStrmCh n { s.strmCh n with running := false, en := false, sent := 0 }).strmHwSet n.val

/-- R280: one word of a burst: transferred, the cursor and the sent counter advanced. -/
def State.strmSend (s : State) (n : StrmIx) : State :=
  let c := s.strmCh n
  (s.emit [transferEvent s.params n (sinkItem c c.fetch)]).setStrmCh n
    { c with cursor := c.cursor + 1, sent := c.sent + 1 }

/-- R280: the rest of a burst of which `k` words are left; after the last, threshold latches and the next tick is armed. -/
def State.strmBurst (s : State) (n : StrmIx) (k : Nat) : State :=
  match k with
  | 0 => (s.strmHwSet (8 + n.val)).arm (.strm n) ((s.strmCh n).burst.toNat * bitTime s.params (s.strmCh n))
  | k + 1 => if isSentinel (s.strmCh n).fetch then s.strmComplete n else (s.strmSend n).strmBurst n k

/-- R280: `Drain(n)`, one tick. -/
def State.drain (s : State) (n : StrmIx) : State :=
  if (s.strmCh n).running then
    if s.strmBlocked n then s.setStrmCh n { s.strmCh n with pending := true }
    else s.strmBurst n (s.strmCh n).burst.toNat
  else s

/-- R278: `StrmStop(n)`. -/
def State.strmStop (s : State) (n : StrmIx) : State :=
  (s.cancel (.strm n)).setStrmCh n { s.strmCh n with running := false, pending := false }

/-- R279: `StrmStart(n)`; the first tick runs inside. -/
def State.strmStart (s : State) (n : StrmIx) : State :=
  let c := { s.strmCh n with cursor := 0, sent := 0, pending := false }
  if runnable s.params c then (s.setStrmCh n { c with running := true }).drain n
  else s.setStrmCh n { c with running := false }

/-- R287: the resume of one channel after a clear. -/
def State.strmResume (s : State) (n : StrmIx) : State :=
  if (s.strmCh n).running ∧ (s.strmCh n).pending ∧ ¬ s.strmBlocked n then
    (s.setStrmCh n { s.strmCh n with pending := false }).drain n
  else s

/-- `R STRM.CHn_CONF` (R289). -/
def execRStrmChConf (n : StrmIx) (s : State) : Result := .next (s.respond (strmConfWord (s.strmCh n)))

/-- `W STRM.CHn_CONF` (R285): stop, store, and start if `EN` is 1. -/
def execWStrmChConf (n : StrmIx) (v : Word) (s : State) : Result :=
  let stopped := s.strmStop n
  let s' := stopped.setStrmCh n (setStrmConf (stopped.strmCh n) v)
  .next (if (s'.strmCh n).en then s'.strmStart n else s')

/-- `R STRM.INT_RAW` (41_interrupt_latch.md R149). -/
def execRStrmIntRaw (s : State) : Result := .next (s.respond (strmLatchWord s.strm.latch.raw))

/-- `W STRM.INT_RAW`: read-only, dropped (40_bus_dispatch.md R124). -/
def execWStrmIntRaw (v : Word) (s : State) : Result := dropWrite v s

/-- `R STRM.INT_STATUS` (41_interrupt_latch.md R149). -/
def execRStrmIntStatus (s : State) : Result := .next (s.respond (strmLatchWord s.strm.latch.status))

/-- `W STRM.INT_STATUS`: read-only, dropped (40_bus_dispatch.md R124). -/
def execWStrmIntStatus (v : Word) (s : State) : Result := dropWrite v s

/-- `R STRM.INT_ENABLE` (41_interrupt_latch.md R149). -/
def execRStrmIntEnable (s : State) : Result := .next (s.respond (strmLatchWord s.strm.latch.enable))

/-- `W STRM.INT_ENABLE` (41_interrupt_latch.md R148). -/
def execWStrmIntEnable (v : Word) (s : State) : Result :=
  .next (s.withStrm { s.strm with latch := s.strm.latch.setEnable (strmLatchOf v) })

/-- `R STRM.INT_CLEAR`: write-only, reads 0 (40_bus_dispatch.md R124). -/
def execRStrmIntClear (s : State) : Result := readZero s

/-- `W STRM.INT_CLEAR` (R287): acknowledge, then resume the channels with a deferred emission, ascending. -/
def execWStrmIntClear (v : Word) (s : State) : Result :=
  .next ((List.finRange 4).foldl State.strmResume
    (s.withStrm { s.strm with latch := s.strm.latch.clear (strmLatchOf v) 0 }))

/-- `R STRM.CHn_RAMi` (R289). -/
def execRStrmRam (n : StrmIx) (i : RingIx) (s : State) : Result := .next (s.respond ((s.strmCh n).ring.get i))

/-- `W STRM.CHn_RAMi` (R286). -/
def execWStrmRam (n : StrmIx) (i : RingIx) (v : Word) (s : State) : Result :=
  .next (s.setStrmCh n { s.strmCh n with ring := Vector.set (s.strmCh n).ring i.val v })

/-- `FIRE STRM(n)` (R288), enabled when the token is due (47_virtual_clock.md R303). -/
def execFireStrm (n : StrmIx) (s : State) : Result :=
  if s.due (.strm n) then .next ((s.cancel (.strm n)).drain n) else .refused .fireNotEnabled

end Sys2Proof.Machine
end

