-- ==== Sys2Proof/Machine/Dispatch.lean ====
section
/-! DEFINITION. One arm per operation: each calls its own meaning. -/

namespace Sys2Proof.Machine

def exec (i : Instr) (s : State) : Host.Outcome State Fault Refusal :=
  match i with
  | .rGpioLevelLo => Sys2Proof.Machine.execRGpioLevelLo s
  | .wGpioLevelLo v => Sys2Proof.Machine.execWGpioLevelLo v s
  | .rGpioLevelHi => Sys2Proof.Machine.execRGpioLevelHi s
  | .wGpioLevelHi v => Sys2Proof.Machine.execWGpioLevelHi v s
  | .rGpioARawLo => Sys2Proof.Machine.execRGpioARawLo s
  | .wGpioARawLo v => Sys2Proof.Machine.execWGpioARawLo v s
  | .rGpioARawHi => Sys2Proof.Machine.execRGpioARawHi s
  | .wGpioARawHi v => Sys2Proof.Machine.execWGpioARawHi v s
  | .rGpioAStatusLo => Sys2Proof.Machine.execRGpioAStatusLo s
  | .wGpioAStatusLo v => Sys2Proof.Machine.execWGpioAStatusLo v s
  | .rGpioAStatusHi => Sys2Proof.Machine.execRGpioAStatusHi s
  | .wGpioAStatusHi v => Sys2Proof.Machine.execWGpioAStatusHi v s
  | .rGpioAEnableLo => Sys2Proof.Machine.execRGpioAEnableLo s
  | .wGpioAEnableLo v => Sys2Proof.Machine.execWGpioAEnableLo v s
  | .rGpioAEnableHi => Sys2Proof.Machine.execRGpioAEnableHi s
  | .wGpioAEnableHi v => Sys2Proof.Machine.execWGpioAEnableHi v s
  | .rGpioAClearLo => Sys2Proof.Machine.execRGpioAClearLo s
  | .wGpioAClearLo v => Sys2Proof.Machine.execWGpioAClearLo v s
  | .rGpioAClearHi => Sys2Proof.Machine.execRGpioAClearHi s
  | .wGpioAClearHi v => Sys2Proof.Machine.execWGpioAClearHi v s
  | .rGpioBRawLo => Sys2Proof.Machine.execRGpioBRawLo s
  | .wGpioBRawLo v => Sys2Proof.Machine.execWGpioBRawLo v s
  | .rGpioBRawHi => Sys2Proof.Machine.execRGpioBRawHi s
  | .wGpioBRawHi v => Sys2Proof.Machine.execWGpioBRawHi v s
  | .rGpioBStatusLo => Sys2Proof.Machine.execRGpioBStatusLo s
  | .wGpioBStatusLo v => Sys2Proof.Machine.execWGpioBStatusLo v s
  | .rGpioBStatusHi => Sys2Proof.Machine.execRGpioBStatusHi s
  | .wGpioBStatusHi v => Sys2Proof.Machine.execWGpioBStatusHi v s
  | .rGpioBEnableLo => Sys2Proof.Machine.execRGpioBEnableLo s
  | .wGpioBEnableLo v => Sys2Proof.Machine.execWGpioBEnableLo v s
  | .rGpioBEnableHi => Sys2Proof.Machine.execRGpioBEnableHi s
  | .wGpioBEnableHi v => Sys2Proof.Machine.execWGpioBEnableHi v s
  | .rGpioBClearLo => Sys2Proof.Machine.execRGpioBClearLo s
  | .wGpioBClearLo v => Sys2Proof.Machine.execWGpioBClearLo v s
  | .rGpioBClearHi => Sys2Proof.Machine.execRGpioBClearHi s
  | .wGpioBClearHi v => Sys2Proof.Machine.execWGpioBClearHi v s
  | .rGpioPinCfg p => Sys2Proof.Machine.execRGpioPinCfg p s
  | .wGpioPinCfg p v => Sys2Proof.Machine.execWGpioPinCfg p v s
  | .rGpioOutsel p => Sys2Proof.Machine.execRGpioOutsel p s
  | .wGpioOutsel p v => Sys2Proof.Machine.execWGpioOutsel p v s
  | .rGpioInsel sig => Sys2Proof.Machine.execRGpioInsel sig s
  | .wGpioInsel sig v => Sys2Proof.Machine.execWGpioInsel sig v s
  | .rDutyChConf n => Sys2Proof.Machine.execRDutyChConf n s
  | .wDutyChConf n v => Sys2Proof.Machine.execWDutyChConf n v s
  | .rDutyChDuty n => Sys2Proof.Machine.execRDutyChDuty n s
  | .wDutyChDuty n v => Sys2Proof.Machine.execWDutyChDuty n v s
  | .rDutyChFade n => Sys2Proof.Machine.execRDutyChFade n s
  | .wDutyChFade n v => Sys2Proof.Machine.execWDutyChFade n v s
  | .rDutyChPct n => Sys2Proof.Machine.execRDutyChPct n s
  | .wDutyChPct n v => Sys2Proof.Machine.execWDutyChPct n v s
  | .rDutyIntRaw => Sys2Proof.Machine.execRDutyIntRaw s
  | .wDutyIntRaw v => Sys2Proof.Machine.execWDutyIntRaw v s
  | .rDutyIntStatus => Sys2Proof.Machine.execRDutyIntStatus s
  | .wDutyIntStatus v => Sys2Proof.Machine.execWDutyIntStatus v s
  | .rDutyIntEnable => Sys2Proof.Machine.execRDutyIntEnable s
  | .wDutyIntEnable v => Sys2Proof.Machine.execWDutyIntEnable v s
  | .rDutyIntClear => Sys2Proof.Machine.execRDutyIntClear s
  | .wDutyIntClear v => Sys2Proof.Machine.execWDutyIntClear v s
  | .rMcmpTmrCfg t => Sys2Proof.Machine.execRMcmpTmrCfg t s
  | .wMcmpTmrCfg t v => Sys2Proof.Machine.execWMcmpTmrCfg t v s
  | .rMcmpOpMode o => Sys2Proof.Machine.execRMcmpOpMode o s
  | .wMcmpOpMode o v => Sys2Proof.Machine.execWMcmpOpMode o v s
  | .rMcmpOpCmpa o => Sys2Proof.Machine.execRMcmpOpCmpa o s
  | .wMcmpOpCmpa o v => Sys2Proof.Machine.execWMcmpOpCmpa o v s
  | .rMcmpOpCmpb o => Sys2Proof.Machine.execRMcmpOpCmpb o s
  | .wMcmpOpCmpb o v => Sys2Proof.Machine.execWMcmpOpCmpb o v s
  | .rStrmChConf n => Sys2Proof.Machine.execRStrmChConf n s
  | .wStrmChConf n v => Sys2Proof.Machine.execWStrmChConf n v s
  | .rStrmIntRaw => Sys2Proof.Machine.execRStrmIntRaw s
  | .wStrmIntRaw v => Sys2Proof.Machine.execWStrmIntRaw v s
  | .rStrmIntStatus => Sys2Proof.Machine.execRStrmIntStatus s
  | .wStrmIntStatus v => Sys2Proof.Machine.execWStrmIntStatus v s
  | .rStrmIntEnable => Sys2Proof.Machine.execRStrmIntEnable s
  | .wStrmIntEnable v => Sys2Proof.Machine.execWStrmIntEnable v s
  | .rStrmIntClear => Sys2Proof.Machine.execRStrmIntClear s
  | .wStrmIntClear v => Sys2Proof.Machine.execWStrmIntClear v s
  | .rStrmRam n j => Sys2Proof.Machine.execRStrmRam n j s
  | .wStrmRam n j v => Sys2Proof.Machine.execWStrmRam n j v s
  | .rUnmapped win off => Sys2Proof.Machine.execRUnmapped win off s
  | .wUnmapped win off v => Sys2Proof.Machine.execWUnmapped win off v s
  | .pinIn p v => Sys2Proof.Machine.execPinIn p v s
  | .announce sig level param => Sys2Proof.Machine.execAnnounce sig level param s
  | .advance t => Sys2Proof.Machine.execAdvance t s
  | .fireDuty n => Sys2Proof.Machine.execFireDuty n s
  | .fireMcmp o k => Sys2Proof.Machine.execFireMcmp o k s
  | .fireStrm n => Sys2Proof.Machine.execFireStrm n s
  | .reset => Sys2Proof.Machine.execReset s

end Sys2Proof.Machine
end

