-- ==== Sys2Proof/Machine/Step.lean ====
section
/-! DEFINITION. One step: the oldest offered operation is decoded and runs to completion as one atomic step (00_scope.md R15,
20_memory.md R65, R72). The inbox stands for the agents' free choices (00_scope.md R10; log entry 1). -/

namespace Sys2Proof.Machine

/-- One step of the block. With nothing offered no agent acts and nothing changes (log entry 2); a request that is no
operation of the block is refused by name (20_memory.md R61, R64; log entry 7). -/
def step (s : State) : Host.Outcome State Fault Refusal :=
  match s.inbox with
  | [] => .next s
  | r :: rest =>
    match decode r with
    | .error e => .refused (.notAnOperation e)
    | .ok i => exec i (s.withInbox rest)

/-- The state in which the bits `w` of an operation (30_encoding.md R86, R106) are offered next. -/
def State.withFetchWord (s : State) (nbits w : Nat) : State := s.withInbox (requestOfBits (w % 2 ^ nbits) :: s.inbox)

end Sys2Proof.Machine
end

