-- ==== Sys2Proof/Machine/View.lean ====
section
/-! DEFINITION. What stands around the operations: the bus read as a function of the state (`MemRead`, 00_scope.md R14), the
byte view of a window (20_memory.md R63), and the pseudo-operations and the script word `RUN` of 30_encoding.md R107, which
expand into operations. -/

namespace Sys2Proof.Machine

/-- `MemRead(P, off, 4)`: the word `BusRead` returns (40_bus_dispatch.md R120). -/
def State.memRead (s : State) (win : Window) (off : BitVec 12) : Word :=
  match exec (decodeBus false win off 0) s with
  | .next t => t.busData.getD 0
  | .fault _ => 0
  | .refused _ => 0

/-- The base address of a window on the system bus (00_scope.md R8): no operation reads it, the bus strips it before the
block sees an offset (20_memory.md R60, decision D1; log entry 11). -/
def Params.base (p : Params) (win : Window) : Nat :=
  match win with
  | .gpio => p.gpioBase
  | .duty => p.dutyBase
  | .mcmp => p.mcmpBase
  | .strm => p.strmBase

/-- R63: the byte at window offset `off`, little-endian. -/
def State.windowByte (s : State) (win : Window) (off : BitVec 12) : Byte :=
  byteOf (s.memRead win (off &&& 0xFFC)) ⟨off.toNat % 4, Nat.mod_lt _ (by decide)⟩

/-- `PINCFG p trig a b` (R107). -/
def pinCfgOp (p : PinIx) (trig : BitVec 3) (a b : Bool) : Instr := .wGpioPinCfg p (pinCfgWord trig a b)

/-- `OUTBIND p sig` (R107). -/
def outBindOp (p : PinIx) (sig : BitVec 8) : Instr := .wGpioOutsel p (outSelWord ⟨sig, false, false⟩)

/-- `OUTFORCE p v` (R107). -/
def outForceOp (p : PinIx) (v : Bool) : Instr := .wGpioOutsel p (outSelWord ⟨0, true, v⟩)

/-- `INBIND s p inv` (R107). -/
def inBindOp (sig : SigIx) (p : BitVec 6) (inv : Bool) : Instr := .wGpioInsel sig (inSelWord ⟨p, inv, false, false⟩)

/-- `INFORCE s v` (R107). -/
def inForceOp (sig : SigIx) (v : Bool) : Instr := .wGpioInsel sig (inSelWord ⟨0, false, true, v⟩)

/-- The `FIRE` of a token. -/
def Token.fireOp (tok : Token) : Instr :=
  match tok with
  | .duty n => .fireDuty n
  | .mcmp o k => .fireMcmp o k
  | .strm n => .fireStrm n

/-- The least deadline in the schedule, if there is one. -/
def State.nextDeadline (s : State) : Option Nat := (Token.all.filterMap s.sched.get).min?

/-- The operations one round of `RUN` performs at the least deadline `d`: the advance, then every token due at `d`, duty
tokens first, then compare tokens, then stream tokens, each by ascending index (R107). -/
def State.roundOps (s : State) (d : Nat) : List Instr :=
  .advance d :: (Token.all.filter (fun tok => s.sched.get tok == some d)).map Token.fireOp

/-- The operations of a list one after another, stopping at the first that is refused. -/
def runOps (is : List Instr) (s : State) : Host.Outcome State Fault Refusal :=
  match is with
  | [] => .next s
  | i :: rest =>
    match exec i s with
    | .next t => runOps rest t
    | .fault f => .fault f
    | .refused r => .refused r

/-- `RUN t` (R107), with at most `fuel` rounds before the last advance (47_virtual_clock.md R308 bounds how many there can
be); `none` when the rounds do not suffice or an operation is refused. -/
def State.runTo (s : State) (t : Nat) (fuel : Nat) : Option State :=
  match fuel with
  | 0 => none
  | fuel + 1 =>
    match s.nextDeadline with
    | some d =>
      if d ≤ t then
        match runOps (s.roundOps d) s with
        | .next s' => s'.runTo t fuel
        | _ => none
      else
        match exec (.advance t) s with
        | .next s' => some s'
        | _ => none
    | none =>
      match exec (.advance t) s with
      | .next s' => some s'
      | _ => none

end Sys2Proof.Machine
end

