-- ==== Sys2Proof/Safety.lean ====
section
/-! DEFINITION. The terms in which statements about the block are made: what an operation may touch, what a drain or a fade
step does in the words of the rules, and the invariant of 10_state.md R48 and 46_stream_waveform.md R291. -/

namespace Sys2Proof.Safety

open Sys2Proof.Machine

/-! Classes of operations. -/

/-- The bus reads, mapped and unmapped (40_bus_dispatch.md R120). -/
def isRead (i : Instr) : Bool :=
  match i with
  | .rGpioLevelLo | .rGpioLevelHi | .rGpioARawLo | .rGpioARawHi | .rGpioAStatusLo | .rGpioAStatusHi
  | .rGpioAEnableLo | .rGpioAEnableHi | .rGpioAClearLo | .rGpioAClearHi | .rGpioBRawLo | .rGpioBRawHi
  | .rGpioBStatusLo | .rGpioBStatusHi | .rGpioBEnableLo | .rGpioBEnableHi | .rGpioBClearLo | .rGpioBClearHi
  | .rGpioPinCfg _ | .rGpioOutsel _ | .rGpioInsel _ | .rDutyChConf _ | .rDutyChDuty _ | .rDutyChFade _
  | .rDutyChPct _ | .rDutyIntRaw | .rDutyIntStatus | .rDutyIntEnable | .rDutyIntClear | .rMcmpTmrCfg _
  | .rMcmpOpMode _ | .rMcmpOpCmpa _ | .rMcmpOpCmpb _ | .rStrmChConf _ | .rStrmIntRaw | .rStrmIntStatus
  | .rStrmIntEnable | .rStrmIntClear | .rStrmRam _ _ | .rUnmapped _ _ => true
  | .wGpioLevelLo _ | .wGpioLevelHi _ | .wGpioARawLo _ | .wGpioARawHi _ | .wGpioAStatusLo _ | .wGpioAStatusHi _
  | .wGpioAEnableLo _ | .wGpioAEnableHi _ | .wGpioAClearLo _ | .wGpioAClearHi _ | .wGpioBRawLo _
  | .wGpioBRawHi _ | .wGpioBStatusLo _ | .wGpioBStatusHi _ | .wGpioBEnableLo _ | .wGpioBEnableHi _
  | .wGpioBClearLo _ | .wGpioBClearHi _ | .wGpioPinCfg _ _ | .wGpioOutsel _ _ | .wGpioInsel _ _
  | .wDutyChConf _ _ | .wDutyChDuty _ _ | .wDutyChFade _ _ | .wDutyChPct _ _ | .wDutyIntRaw _
  | .wDutyIntStatus _ | .wDutyIntEnable _ | .wDutyIntClear _ | .wMcmpTmrCfg _ _ | .wMcmpOpMode _ _
  | .wMcmpOpCmpa _ _ | .wMcmpOpCmpb _ _ | .wStrmChConf _ _ | .wStrmIntRaw _ | .wStrmIntStatus _
  | .wStrmIntEnable _ | .wStrmIntClear _ | .wStrmRam _ _ _ | .wUnmapped _ _ _ | .pinIn _ _ | .announce _ _ _
  | .advance _ | .fireDuty _ | .fireMcmp _ _ | .fireStrm _ | .reset => false

/-- The bus writes that are dropped: to a read-only register or to an unmapped offset (40_bus_dispatch.md R123, R124). -/
def isDroppedWrite (i : Instr) : Bool :=
  match i with
  | .wGpioARawLo _ | .wGpioARawHi _ | .wGpioAStatusLo _ | .wGpioAStatusHi _ | .wGpioBRawLo _ | .wGpioBRawHi _
  | .wGpioBStatusLo _ | .wGpioBStatusHi _ | .wDutyChPct _ _ | .wDutyIntRaw _ | .wDutyIntStatus _
  | .wStrmIntRaw _ | .wStrmIntStatus _ | .wUnmapped _ _ _ => true
  | .rGpioLevelLo | .wGpioLevelLo _ | .rGpioLevelHi | .wGpioLevelHi _ | .rGpioARawLo | .rGpioARawHi
  | .rGpioAStatusLo | .rGpioAStatusHi | .rGpioAEnableLo | .wGpioAEnableLo _ | .rGpioAEnableHi
  | .wGpioAEnableHi _ | .rGpioAClearLo | .wGpioAClearLo _ | .rGpioAClearHi | .wGpioAClearHi _ | .rGpioBRawLo
  | .rGpioBRawHi | .rGpioBStatusLo | .rGpioBStatusHi | .rGpioBEnableLo | .wGpioBEnableLo _ | .rGpioBEnableHi
  | .wGpioBEnableHi _ | .rGpioBClearLo | .wGpioBClearLo _ | .rGpioBClearHi | .wGpioBClearHi _ | .rGpioPinCfg _
  | .wGpioPinCfg _ _ | .rGpioOutsel _ | .wGpioOutsel _ _ | .rGpioInsel _ | .wGpioInsel _ _ | .rDutyChConf _
  | .wDutyChConf _ _ | .rDutyChDuty _ | .wDutyChDuty _ _ | .rDutyChFade _ | .wDutyChFade _ _ | .rDutyChPct _
  | .rDutyIntRaw | .rDutyIntStatus | .rDutyIntEnable | .wDutyIntEnable _ | .rDutyIntClear | .wDutyIntClear _
  | .rMcmpTmrCfg _ | .wMcmpTmrCfg _ _ | .rMcmpOpMode _ | .wMcmpOpMode _ _ | .rMcmpOpCmpa _ | .wMcmpOpCmpa _ _
  | .rMcmpOpCmpb _ | .wMcmpOpCmpb _ _ | .rStrmChConf _ | .wStrmChConf _ _ | .rStrmIntRaw | .rStrmIntStatus
  | .rStrmIntEnable | .wStrmIntEnable _ | .rStrmIntClear | .wStrmIntClear _ | .rStrmRam _ _ | .wStrmRam _ _ _
  | .rUnmapped _ _ | .pinIn _ _ | .announce _ _ _ | .advance _ | .fireDuty _ | .fireMcmp _ _ | .fireStrm _
  | .reset => false

/-- The part of the state besides the trace that an operation reaches (20_memory.md R62). -/
inductive Reach where
  | gpio
  | duty (n : DutyIx)
  | dutyLatch
  | mcmp
  | strm
  | clock
  | nothing
  | everything
  deriving DecidableEq, Repr

/-- R62: which operation reaches which part. The written register of a dropped write is reached by nothing. -/
def reach (i : Instr) : Reach :=
  match i with
  | .wGpioLevelLo _ | .wGpioLevelHi _ | .wGpioAEnableLo _ | .wGpioAEnableHi _ | .wGpioAClearLo _
  | .wGpioAClearHi _ | .wGpioBEnableLo _ | .wGpioBEnableHi _ | .wGpioBClearLo _ | .wGpioBClearHi _
  | .wGpioPinCfg _ _ | .wGpioOutsel _ _ | .wGpioInsel _ _ | .pinIn _ _ => .gpio
  | .wDutyChConf n _ => .duty n
  | .wDutyChDuty n _ => .duty n
  | .wDutyChFade n _ => .duty n
  | .fireDuty n => .duty n
  | .wDutyIntEnable _ | .wDutyIntClear _ => .dutyLatch
  | .wMcmpTmrCfg _ _ | .wMcmpOpMode _ _ | .wMcmpOpCmpa _ _ | .wMcmpOpCmpb _ _ | .fireMcmp _ _ => .mcmp
  | .wStrmChConf _ _ | .wStrmIntEnable _ | .wStrmIntClear _ | .wStrmRam _ _ _ | .fireStrm _ => .strm
  | .advance _ => .clock
  | .rGpioLevelLo | .rGpioLevelHi | .rGpioARawLo | .wGpioARawLo _ | .rGpioARawHi | .wGpioARawHi _
  | .rGpioAStatusLo | .wGpioAStatusLo _ | .rGpioAStatusHi | .wGpioAStatusHi _ | .rGpioAEnableLo
  | .rGpioAEnableHi | .rGpioAClearLo | .rGpioAClearHi | .rGpioBRawLo | .wGpioBRawLo _ | .rGpioBRawHi
  | .wGpioBRawHi _ | .rGpioBStatusLo | .wGpioBStatusLo _ | .rGpioBStatusHi | .wGpioBStatusHi _
  | .rGpioBEnableLo | .rGpioBEnableHi | .rGpioBClearLo | .rGpioBClearHi | .rGpioPinCfg _ | .rGpioOutsel _
  | .rGpioInsel _ | .rDutyChConf _ | .rDutyChDuty _ | .rDutyChFade _ | .rDutyChPct _ | .wDutyChPct _ _
  | .rDutyIntRaw | .wDutyIntRaw _ | .rDutyIntStatus | .wDutyIntStatus _ | .rDutyIntEnable | .rDutyIntClear
  | .rMcmpTmrCfg _ | .rMcmpOpMode _ | .rMcmpOpCmpa _ | .rMcmpOpCmpb _ | .rStrmChConf _ | .rStrmIntRaw
  | .wStrmIntRaw _ | .rStrmIntStatus | .wStrmIntStatus _ | .rStrmIntEnable | .rStrmIntClear | .rStrmRam _ _
  | .rUnmapped _ _ | .wUnmapped _ _ _ | .announce _ _ _ => .nothing
  | .reset => .everything

/-- The enabling conditions: `ADVANCE` (47_virtual_clock.md R302) and `FIRE` (R303) have one, nothing else has. -/
def Enabled (i : Instr) (s : State) : Prop :=
  (∀ t, i = .advance t → s.now ≤ t ∧ ∀ tok d, s.sched.get tok = some d → t ≤ d) ∧
    ∀ tok : Token, i = tok.fireOp → s.sched.get tok = some s.now

/-- The level word writes (42_gpio_trigger.md R167, R168): the `_HI` word when `hi` is true. -/
def levelWrite (hi : Bool) (v : Word) : Instr := if hi then .wGpioLevelHi v else .wGpioLevelLo v

/-- The enable word writes (41_interrupt_latch.md R142). -/
def enableWrite (c : Ctx) (hi : Bool) (v : Word) : Instr :=
  match c, hi with
  | .a, false => .wGpioAEnableLo v
  | .a, true => .wGpioAEnableHi v
  | .b, false => .wGpioBEnableLo v
  | .b, true => .wGpioBEnableHi v

/-- The clear mask writes (41_interrupt_latch.md R143). -/
def clearWrite (c : Ctx) (hi : Bool) (v : Word) : Instr :=
  match c, hi with
  | .a, false => .wGpioAClearLo v
  | .a, true => .wGpioAClearHi v
  | .b, false => .wGpioBClearLo v
  | .b, true => .wGpioBClearHi v

/-- The raw word reads (41_interrupt_latch.md R144). -/
def rawRead (c : Ctx) (hi : Bool) : Instr :=
  match c, hi with
  | .a, false => .rGpioARawLo
  | .a, true => .rGpioARawHi
  | .b, false => .rGpioBRawLo
  | .b, true => .rGpioBRawHi

/-- The status word reads (41_interrupt_latch.md R144). -/
def statusRead (c : Ctx) (hi : Bool) : Instr :=
  match c, hi with
  | .a, false => .rGpioAStatusLo
  | .a, true => .rGpioAStatusHi
  | .b, false => .rGpioBStatusLo
  | .b, true => .rGpioBStatusHi

/-- The enable word reads (41_interrupt_latch.md R144). -/
def enableRead (c : Ctx) (hi : Bool) : Instr :=
  match c, hi with
  | .a, false => .rGpioAEnableLo
  | .a, true => .rGpioAEnableHi
  | .b, false => .rGpioBEnableLo
  | .b, true => .rGpioBEnableHi

/-- 30_encoding.md R94: pin p is carried by the `_HI` word when `hi` is true, else by the `_LO` word. -/
def inHalf (hi : Bool) (p : PinIx) : Bool := hi == decide (32 ≤ p.val)

/-- 30_encoding.md R94: the bit of its word that carries pin p. -/
def pinBit (v : Word) (p : PinIx) : Bool := v.getLsbD (p.val % 32)

/-- 30_encoding.md R94: `w` is the `_LO` (`hi` false) or `_HI` word of the pin vector `x`: its bits carry the pins of the
half, and the others are 0. -/
def CarriesHalf (hi : Bool) (x : BitVec 49) (w : Word) : Prop :=
  ∀ i, i < 32 → w.getLsbD i = (if hi then decide (i < 17) && x.getLsbD (32 + i) else x.getLsbD i)

/-! What changes and what does not. -/

/-- Slot `tok` holds `d` and every other slot is as before. -/
def OneSlot (old new : Sched) (tok : Token) (d : Option Nat) : Prop :=
  new.get tok = d ∧ ∀ tok', tok' ≠ tok → new.get tok' = old.get tok'

/-- Element `i` is `c` and every other element is as before. -/
def OneElem {α : Type} {k : Nat} (old new : Vector α k) (i : Fin k) (c : α) : Prop :=
  new.get i = c ∧ ∀ j, j ≠ i → new.get j = old.get j

/-- Output channel (o,k) is `c` and every other one is as before. -/
def OneOut (old new : Vector (Vector OutCh 2) 3) (o : OpIx) (k : OutIx) (c : OutCh) : Prop :=
  (new.get o).get k = c ∧ ∀ o' k', (o', k') ≠ (o, k) → (new.get o').get k' = (old.get o').get k'

/-- The bit vector is as before but for bit `b`, which is set. -/
def SetsBit {w : Nat} (old new : BitVec w) (b : Nat) : Prop :=
  ∀ i, i < w → new.getLsbD i = (old.getLsbD i || decide (i = b))

/-- 43_gpio_crossbar.md R190: the events of an announcement: one for every unforced entry that selects the signal, in
ascending pin order. -/
def forwards (s : State) (sig : Nat) (level : Bool) (param : Option Word) : List Event :=
  ((List.finRange 49).filter
    (fun p => decide ((s.gpio.outsel.get p).force = false ∧ (s.gpio.outsel.get p).sel.toNat = sig))).map
      (fun p => Event.pinOut p level param)

/-- 44_duty_timer.md R211, 45_multi_timer_compare.md R245: the events when an output whose phase was `old` is set to
`new`. -/
def phaseEvents (s : State) (sig : Nat) (old new : Bool) : List Event := if old = new then [] else forwards s sig new none

/-- 44_duty_timer.md R215: the channel after `FadeStep`, in naturals. -/
def fadedCh (c : DutyCh) : DutyCh :=
  if c.remain.toNat = 0 ∨ c.cycles.toNat = 0 then c
  else if (c.cyc + 1).toNat < c.cycles.toNat then { c with cyc := c.cyc + 1 }
  else
    { c with
      cyc := 0
      duty := BitVec.ofNat 32
        (if c.dir then min (c.duty.toNat + c.step.toNat) (2 ^ c.res.toNat) else c.duty.toNat - c.step.toNat)
      remain := c.remain - 1 }

/-- 44_duty_timer.md R215: `FadeStep` takes the last step of a fade. -/
abbrev fadeEnds (c : DutyCh) : Prop := c.cycles.toNat ≠ 0 ∧ c.cycles.toNat ≤ (c.cyc + 1).toNat ∧ c.remain.toNat = 1

/-- 46_stream_waveform.md R280: the ring word `j` places after the cursor. -/
def ahead (c : StrmCh) (j : Nat) : Word := c.ring.get ⟨(c.cursor.toNat + j) % 64, Nat.mod_lt _ (by decide)⟩

/-- 46_stream_waveform.md R267: both 15-bit lengths of the word are zero. -/
def SentinelWord (w : Word) : Prop := w.toNat % 2 ^ 15 = 0 ∧ w.toNat / 2 ^ 16 % 2 ^ 15 = 0

/-- 46_stream_waveform.md R282 to R284: the event of one word of channel n. -/
def wordEvent (s : State) (n : StrmIx) (w : Word) : Event :=
  if s.params.sinkPresent.get n then
    .sinkXfer n ⟨w.getLsbD 15, w.toNat % 2 ^ 15 * (s.strmCh n).div.toNat, w.getLsbD 31,
      w.toNat / 2 ^ 16 % 2 ^ 15 * (s.strmCh n).div.toNat⟩
  else .warn n

/-- The events of the next `m` words of channel n, in order. -/
def wordEvents (s : State) (n : StrmIx) (m : Nat) : List Event :=
  (List.range m).map (fun j => wordEvent s n (ahead (s.strmCh n) j))

/-- 46_stream_waveform.md R281: the channel's own completion or threshold interrupt is latched. -/
def Blocked (s : State) (n : StrmIx) : Prop :=
  s.strm.latch.raw.getLsbD n.val = true ∨ s.strm.latch.raw.getLsbD (8 + n.val) = true

/-- 46_stream_waveform.md R268. -/
def Runnable (p : Params) (c : StrmCh) : Prop :=
  p.strmClkHz ≠ 0 ∧ c.div.toNat ≠ 0 ∧ c.burst.toNat ≠ 0 ∧ c.div.toNat * Config.unitsPerSecond / p.strmClkHz ≠ 0

/-- What one tick of a running, unblocked channel does when its first sentinel stands `j` words ahead, inside the burst
(46_stream_waveform.md R280). -/
def TickToSentinel (n : StrmIx) (j : Nat) (s t : State) : Prop :=
  ∃ q, t = (s.withStrm q).withTrace (s.trace ++ wordEvents s n j) ∧
    OneElem s.strm.ch q.ch n
      { s.strmCh n with cursor := (s.strmCh n).cursor + BitVec.ofNat 6 j, running := false, en := false, sent := 0 } ∧
    q.latch.enable = s.strm.latch.enable ∧ SetsBit s.strm.latch.raw q.latch.raw n.val

/-- What one tick of a running, unblocked channel does when no sentinel stands in the burst (R280). -/
def TickFullBurst (n : StrmIx) (s t : State) : Prop :=
  ∃ q x, t = ((s.withStrm q).withSched x).withTrace (s.trace ++ wordEvents s n (s.strmCh n).burst.toNat) ∧
    OneElem s.strm.ch q.ch n
      { s.strmCh n with
        cursor := (s.strmCh n).cursor + BitVec.ofNat 6 (s.strmCh n).burst.toNat
        sent := (s.strmCh n).sent + (s.strmCh n).burst.toNat } ∧
    q.latch.enable = s.strm.latch.enable ∧ SetsBit s.strm.latch.raw q.latch.raw (8 + n.val) ∧
    OneSlot s.sched x (.strm n)
      (some (s.now + (s.strmCh n).burst.toNat * ((s.strmCh n).div.toNat * Config.unitsPerSecond / s.params.strmClkHz)))

/-- 46_stream_waveform.md R280: `t` is what `Drain(n)` makes of `s`. -/
def Drained (n : StrmIx) (s t : State) : Prop :=
  ((s.strmCh n).running = false ∧ t = s) ∨
  ((s.strmCh n).running = true ∧ Blocked s n ∧
    ∃ q, t = s.withStrm q ∧ q.latch = s.strm.latch ∧
      OneElem s.strm.ch q.ch n { s.strmCh n with pending := true }) ∨
  ((s.strmCh n).running = true ∧ ¬ Blocked s n ∧
    ∃ j, j < (s.strmCh n).burst.toNat ∧ (∀ i, i < j → ¬ SentinelWord (ahead (s.strmCh n) i)) ∧
      SentinelWord (ahead (s.strmCh n) j) ∧ TickToSentinel n j s t) ∨
  ((s.strmCh n).running = true ∧ ¬ Blocked s n ∧
    (∀ i, i < (s.strmCh n).burst.toNat → ¬ SentinelWord (ahead (s.strmCh n) i)) ∧ TickFullBurst n s t)

/-- 46_stream_waveform.md R287: `t` is what the resume of channel n after a clear makes of `s`. -/
def Resumed (n : StrmIx) (s t : State) : Prop :=
  if (s.strmCh n).running = true ∧ (s.strmCh n).pending = true then
    (Blocked s n ∧ t = s) ∨
    (¬ Blocked s n ∧ ∃ q, q.latch = s.strm.latch ∧ OneElem s.strm.ch q.ch n { s.strmCh n with pending := false } ∧
      Drained n (s.withStrm q) t)
  else t = s

/-- The operations in which a running, unblocked channel n runs its tick (46_stream_waveform.md R280): a start write of a
runnable configuration (R279, R285), its callback (R288), and a clear that unblocks its deferred emission (R287). -/
def Ticks (n : StrmIx) (s : State) (i : Instr) : Prop :=
  (∃ v : Word, i = .wStrmChConf n v ∧ v.getLsbD 31 = true ∧ Runnable s.params (setStrmConf (s.strmCh n) v) ∧ ¬ Blocked s n) ∨
  (i = .fireStrm n ∧ (s.strmCh n).running = true ∧ ¬ Blocked s n) ∨
  (∃ v : Word, i = .wStrmIntClear v ∧ (s.strmCh n).running = true ∧ (s.strmCh n).pending = true ∧
    (s.strm.latch.raw.getLsbD n.val = true → v.getLsbD n.val = true) ∧
    (s.strm.latch.raw.getLsbD (8 + n.val) = true → v.getLsbD (8 + n.val) = true))

/-- An event of channel n's output (46_stream_waveform.md R291 (a)). -/
def isOutputOf (n : StrmIx) (e : Event) : Bool :=
  match e with
  | .sinkXfer m _ => decide (m = n)
  | .warn m => decide (m = n)
  | .pinOut _ _ _ => false

/-- An event with what depends on an attached sink erased (46_stream_waveform.md R284). -/
def eraseSink (e : Event) : Event :=
  match e with
  | .sinkXfer n _ => .warn n
  | .warn n => .warn n
  | .pinOut p l q => .pinOut p l q

/-- The state under other attached sinks. -/
def withSinks (s : State) (sinks : Vector Bool 4) : State := { s with params := { s.params with sinkPresent := sinks } }

/-- The state under other window bases. -/
def withBases (s : State) (gpio duty mcmp strm : Nat) : State :=
  { s with params := { s.params with gpioBase := gpio, dutyBase := duty, mcmpBase := mcmp, strmBase := strm } }

/-! The duty oscillator over time. -/

/-- 44_duty_timer.md R215: no fade is configured, so that `FadeStep` does nothing. -/
def NoFade (c : DutyCh) : Prop := c.remain.toNat = 0 ∨ c.cycles.toNat = 0

/-- Time passes to the deadline of duty channel n and the channel fires: `ADVANCE`, then `FIRE`, each as it is enabled. -/
def dutyToggle (n : DutyIx) (s : State) : Option State :=
  match s.sched.get (.duty n) with
  | none => none
  | some d =>
    match runOps [.advance d, .fireDuty n] s with
    | .next t => some t
    | .fault _ => none
    | .refused _ => none

/-- `k` toggles of duty channel n. -/
def dutyToggles (n : DutyIx) (k : Nat) (s : State) : Option State :=
  match k with
  | 0 => some s
  | k + 1 => (dutyToggle n s).bind (dutyToggles n k)

/-- 44_duty_timer.md R209: duty channel n oscillates with the given period on the grid of `t0`, no fade moving its duty: its
deadline is the end of a HIGH phase that began a whole number of periods after `t0`, or of the LOW phase after that one. -/
def PhaseLocked (n : DutyIx) (t0 period : Nat) (s : State) : Prop :=
  NoFade (s.dutyCh n) ∧ ∃ on off k, dutyTimes s.params (s.dutyCh n) = some (on, off) ∧ on + off = period ∧
    s.sched.get (.duty n) = some (t0 + k * period + (if (s.dutyCh n).phase then on else period))

/-- The register writes of duty channel n (44_duty_timer.md R216 to R218), and `RESET`. -/
def Reconfigures (n : DutyIx) (i : Instr) : Prop :=
  (∃ v, i = .wDutyChConf n v) ∨ (∃ v, i = .wDutyChDuty n v) ∨ (∃ v, i = .wDutyChFade n v) ∨ i = .reset

/-! The invariant. -/

/-- 10_state.md R48 (I3): no deadline is in the past. -/
def DeadlinesAhead (s : State) : Prop := ∀ tok d, s.sched.get tok = some d → s.now ≤ d

/-- 44_duty_timer.md R205, R214, 10_state.md R48 (I4): a duty channel has a deadline exactly when it is RUNNING, an INERT
one is LOW, and a RUNNING one is enabled and not configured inert. -/
def DutyConsistent (s : State) : Prop :=
  ∀ n, ((s.dutyCh n).running = (s.sched.get (.duty n)).isSome) ∧
    ((s.dutyCh n).running = false → (s.dutyCh n).phase = false) ∧
    ((s.dutyCh n).running = true → (s.dutyCh n).en = true ∧ dutyTimes s.params (s.dutyCh n) ≠ none)

/-- 10_state.md R48 (I4): a compare output has a deadline exactly when it is running, and one that is not is LOW. -/
def McmpConsistent (s : State) : Prop :=
  ∀ o k, ((s.mcmpOut o k).running = (s.sched.get (.mcmp o k)).isSome) ∧
    ((s.mcmpOut o k).running = false → (s.mcmpOut o k).phase = false)

/-- 46_stream_waveform.md R265, R291 (b), (e), 10_state.md R48 (I4): a stopped stream channel has no deadline and owes
nothing; a running one is enabled and runnable and has a deadline or owes an emission, not both; an owed emission is
blocked; completion and threshold are never both latched. -/
def StrmConsistent (s : State) : Prop :=
  ∀ n, ((s.strmCh n).running = false → s.sched.get (.strm n) = none ∧ (s.strmCh n).pending = false) ∧
    ((s.strmCh n).running = true → (s.strmCh n).en = true ∧ Runnable s.params (s.strmCh n) ∧
      ((s.strmCh n).pending = true ↔ s.sched.get (.strm n) = none)) ∧
    ((s.strmCh n).pending = true → Blocked s n) ∧
    ¬ (s.strm.latch.raw.getLsbD n.val = true ∧ s.strm.latch.raw.getLsbD (8 + n.val) = true)

/-- 10_state.md R45: the bits of the `STRM` latch group that are not implemented are 0. -/
def StrmReservedZero (s : State) : Prop :=
  s.strm.latch.raw &&& ~~~(0x0F0F : BitVec 16) = 0 ∧ s.strm.latch.enable &&& ~~~(0x0F0F : BitVec 16) = 0

/-- The invariants of the block (10_state.md R45, R48; 46_stream_waveform.md R291). -/
structure Inv (s : State) : Prop where
  deadlines : DeadlinesAhead s
  duty : DutyConsistent s
  mcmp : McmpConsistent s
  strm : StrmConsistent s
  reserved : StrmReservedZero s

end Sys2Proof.Safety
end

