-- ==== Sys2Proof/Certificates/Slice0/Obligations.lean ====
section
/-! DEFINITION. The statements for the provers. Each says which rule it formalises. A bus read's word is found in the model's
own field `busData` (`State.respond`, log entry 3). -/

open Sys2Proof Sys2Proof.Machine Sys2Proof.Safety

/-! ## Encoding and decoding -/

/-- R87, R95 to R98: the operation decoded from the request of any well-formed operation is that operation. -/
def Obligations.DecodeEncodeRoundTrip : Prop := ∀ i : Instr, i.wf = true → decode (encode i) = .ok i

/-- R87, R95 to R98: whatever decodes is well formed (an unmapped access only at an offset the spec lists as unmapped) and
its request is the one the encoder writes: every accepted bus access has exactly one operation. -/
def Obligations.DecodedRequestsAreEncodings : Prop :=
  ∀ (r : Request) (i : Instr), decode r = .ok i → i.wf = true ∧ encode i = r

/-- R86, R108: no selector fits the match and mask of two mapped rows. -/
def Obligations.MappedRowsDoNotOverlap : Prop :=
  busRows.Pairwise (fun a b => (a.pat ^^^ b.pat) &&& (a.mask &&& b.mask) ≠ 0)

/-- R60, R61, R64, R85: exactly the aligned 32-bit accesses inside a window are bus operations, exactly the pins 0 to 48,
signals 0 to 255 and levels 0 and 1 are event operands; that everything else is rejected is log entry 7. -/
def Obligations.OnlyAlignedWordsAndExistingPinsAreOperations : Prop :=
  (∀ win off width, (∃ i, decode (.busRead win off width) = .ok i) ↔ width = 32 ∧ off % 4 = 0 ∧ off ≤ 0xFFF) ∧
  (∀ win off width v, (∃ i, decode (.busWrite win off width v) = .ok i) ↔ width = 32 ∧ off % 4 = 0 ∧ off ≤ 0xFFF) ∧
  (∀ p v, (∃ i, decode (.pinIn p v) = .ok i) ↔ p ≤ 48 ∧ v ≤ 1) ∧
  (∀ sig level q, (∃ i, decode (.announce sig level q) = .ok i) ↔ sig ≤ 255 ∧ level ≤ 1)

/-- Words written out from the selector of R86 and the register maps (95_test_vectors.md gives them) decode to the
operation they stand for. That the selector stands in bits 14:0 of one number and the data word in bits 47:16 is the model's
choice (log entry 9). -/
def Obligations.WrittenOutWordsDecode : Prop :=
  decodeTableWord 48 0x0000000D4114 = some (.wGpioPinCfg 5 0x0D) ∧
  decodeTableWord 16 0x003C = some .rGpioBStatusHi ∧
  decodeTableWord 48 0x8000004A5000 = some (.wDutyChConf 0 0x8000004A) ∧
  decodeTableWord 48 0x000000196058 = some (.wMcmpOpCmpb 1 0x19) ∧
  decodeTableWord 48 0xDEADBEEF77FC = some (.wStrmRam 3 63 0xDEADBEEF) ∧
  decodeTableWord 16 0x204C = some (.rUnmapped .mcmp 0x04C)

/-- R72: one step takes the oldest offered operation and runs it (the inbox is the model's choice, log entry 1); a request
that is no operation is refused (R61, R64 as log entry 7 reads them); with nothing offered nothing changes (log entry 2); a
table word that is offered runs as its operation, under the number layout of log entry 9. -/
def Obligations.StepRunsTheDecodedOperation : Prop :=
  (∀ (s : State) (r : Request) (rest : List Request) (i : Instr), s.inbox = r :: rest → decode r = .ok i →
    step s = exec i (s.withInbox rest)) ∧
  (∀ (s : State) (r : Request) (rest : List Request) (e : Reject), s.inbox = r :: rest → decode r = .error e →
    step s = .refused (.notAnOperation e)) ∧
  (∀ s : State, s.inbox = [] → step s = .next s) ∧
  (∀ (s : State) (nbits w : Nat) (i : Instr), decodeTableWord nbits w = some i →
    step (s.withFetchWord nbits w) = exec i s)

/-! ## Bus accesses in general -/

/-- R66: every bus read completes, answers a word and changes nothing, and the same read again answers the same word. -/
def Obligations.ReadsAnswerAWordAndChangeNothing : Prop :=
  ∀ (i : Instr) (s : State), isRead i = true →
    ∃ w, exec i s = .next (s.respond w) ∧ exec i (s.respond w) = .next (s.respond w)

/-- R122, R123, R124: a write to a read-only register or to an offset the spec lists as unmapped is dropped; a read of a
write-only register or of an unmapped offset returns 0 and changes nothing. -/
def Obligations.WrongDirectionAndUnmappedAccessesAreHarmless : Prop :=
  (∀ (i : Instr) (s : State), isDroppedWrite i = true → exec i s = .next s) ∧
  (∀ s : State,
    exec .rGpioAClearLo s = .next (s.respond 0) ∧ exec .rGpioAClearHi s = .next (s.respond 0) ∧
    exec .rGpioBClearLo s = .next (s.respond 0) ∧ exec .rGpioBClearHi s = .next (s.respond 0) ∧
    exec .rDutyIntClear s = .next (s.respond 0) ∧ exec .rStrmIntClear s = .next (s.respond 0)) ∧
  (∀ (s : State) (win : Window) (off : Nat) (v : Word), win.unmappedWord off = true →
    ∃ i j, decode (.busRead win off 32) = .ok i ∧ exec i s = .next (s.respond 0) ∧
      decode (.busWrite win off 32 v) = .ok j ∧ exec j s = .next s)

/-! ## Latch groups and lines -/

/-- R160, R161: the truth table of the trigger decision. -/
def Obligations.TriggerTruthTable : Prop :=
  ∀ (type : BitVec 3) (l0 l1 : Bool), fires type l0 l1 = true ↔
    (type = 1 ∧ l0 = false ∧ l1 = true) ∨ (type = 2 ∧ l0 = true ∧ l1 = false) ∨ (type = 3 ∧ l0 ≠ l1) ∨
      (type = 4 ∧ l1 = false) ∨ (type = 5 ∧ l1 = true)

/-- R132: each line is 1 exactly when some source of its peripheral is both pending and enabled; `MCMP.irq` is 0. -/
def Obligations.LinesAreTheOrOfPendingEnabledSources : Prop :=
  ∀ s : State,
    (s.gpioIrq = true ↔
      ∃ (c : Ctx) (p : PinIx), (s.gpio.latch c).raw.getLsbD p.val = true ∧ (s.gpio.latch c).enable.getLsbD p.val = true) ∧
    (s.dutyIrq = true ↔
      ∃ n : DutyIx, s.duty.latch.raw.getLsbD n.val = true ∧ s.duty.latch.enable.getLsbD n.val = true) ∧
    (s.strmIrq = true ↔
      ∃ b : Fin 16, s.strm.latch.raw.getLsbD b.val = true ∧ s.strm.latch.enable.getLsbD b.val = true) ∧
    s.mcmpIrq = false

/-- R144: the twelve read words of the two contexts carry raw, raw and enable, or enable, split as R94 says. -/
def Obligations.GpioLatchWordsRead : Prop :=
  ∀ (s : State) (c : Ctx) (hi : Bool),
    (∃ w, exec (rawRead c hi) s = .next (s.respond w) ∧ CarriesHalf hi (s.gpio.latch c).raw w) ∧
    (∃ w, exec (statusRead c hi) s = .next (s.respond w) ∧
      CarriesHalf hi ((s.gpio.latch c).raw &&& (s.gpio.latch c).enable) w) ∧
    (∃ w, exec (enableRead c hi) s = .next (s.respond w) ∧ CarriesHalf hi (s.gpio.latch c).enable w)

/-- R142: an enable write sets the gate bits its word carries; nothing else changes. -/
def Obligations.EnableWriteSetsTheGateBits : Prop :=
  ∀ (s : State) (c : Ctx) (hi : Bool) (v : Word),
    decode (.busWrite .gpio ((if c = .a then 0x020 else 0x040) + (if hi then 4 else 0)) 32 v) = .ok (enableWrite c hi v) ∧
    ∃ l, exec (enableWrite c hi v) s = .next (s.withGpio (s.gpio.setLatch c l)) ∧
      l.raw = (s.gpio.latch c).raw ∧
      ∀ p : PinIx, l.enable.getLsbD p.val =
        if inHalf hi p then pinBit v p else (s.gpio.latch c).enable.getLsbD p.val

/-- R140, R143: a clear write clears exactly the named raw bits of its context whose level condition no longer holds;
nothing else changes. -/
def Obligations.ClearWriteSparesStillTrueLevels : Prop :=
  ∀ (s : State) (c : Ctx) (hi : Bool) (v : Word),
    decode (.busWrite .gpio ((if c = .a then 0x028 else 0x048) + (if hi then 4 else 0)) 32 v) = .ok (clearWrite c hi v) ∧
    ∃ l, exec (clearWrite c hi v) s = .next (s.withGpio (s.gpio.setLatch c l)) ∧
      l.enable = (s.gpio.latch c).enable ∧
      ∀ p : PinIx, l.raw.getLsbD p.val =
        ((s.gpio.latch c).raw.getLsbD p.val &&
          !(inHalf hi p && pinBit v p &&
            !decide ((s.gpio.trig.get p = 4 ∧ s.gpio.level.getLsbD p.val = false) ∨
              (s.gpio.trig.get p = 5 ∧ s.gpio.level.getLsbD p.val = true))))

/-- R141: the gate bits of `PINp_CFG` and the enable words are two views of one storage: they agree in every state, and a
write through either view is seen at once through the other. -/
def Obligations.EnableWordsAndPinWordsAgree : Prop :=
  ∀ (s : State) (c : Ctx) (p : PinIx) (v : Word),
    let gate : Nat := if c = .a then 3 else 4
    let hi := decide (32 ≤ p.val)
    (∃ wp we, exec (.rGpioPinCfg p) s = .next (s.respond wp) ∧ exec (enableRead c hi) s = .next (s.respond we) ∧
      wp.getLsbD gate = pinBit we p ∧ wp.getLsbD gate = (s.gpio.latch c).enable.getLsbD p.val) ∧
    (∃ t w, exec (.wGpioPinCfg p v) s = .next t ∧ exec (enableRead c hi) t = .next (t.respond w) ∧
      pinBit w p = v.getLsbD gate) ∧
    (∃ t w, exec (enableWrite c hi v) s = .next t ∧ exec (.rGpioPinCfg p) t = .next (t.respond w) ∧
      w.getLsbD gate = pinBit v p)

/-- R145, R146: a `DUTY` clear always clears exactly the named raw bits; a `DUTY` enable write sets the eight enable bits;
neither changes anything else. -/
def Obligations.DutyIntClearAndEnableWrites : Prop :=
  ∀ (s : State) (v : Word),
    decode (.busWrite .duty 0x0CC 32 v) = .ok (.wDutyIntClear v) ∧
    decode (.busWrite .duty 0x0C8 32 v) = .ok (.wDutyIntEnable v) ∧
    (∃ raw, exec (.wDutyIntClear v) s = .next (s.withDuty { s.duty with latch := ⟨raw, s.duty.latch.enable⟩ }) ∧
      ∀ n : DutyIx, raw.getLsbD n.val = (s.duty.latch.raw.getLsbD n.val && !v.getLsbD n.val)) ∧
    ∃ en, exec (.wDutyIntEnable v) s = .next (s.withDuty { s.duty with latch := ⟨s.duty.latch.raw, en⟩ }) ∧
      ∀ n : DutyIx, en.getLsbD n.val = v.getLsbD n.val

/-- R147, R149: the latch words of `DUTY` and `STRM`. -/
def Obligations.DutyAndStrmLatchWordsRead : Prop :=
  ∀ s : State,
    (∃ w, exec .rDutyIntRaw s = .next (s.respond w) ∧ w.toNat = s.duty.latch.raw.toNat) ∧
    (∃ w, exec .rDutyIntStatus s = .next (s.respond w) ∧ w.toNat = (s.duty.latch.raw &&& s.duty.latch.enable).toNat) ∧
    (∃ w, exec .rDutyIntEnable s = .next (s.respond w) ∧ w.toNat = s.duty.latch.enable.toNat) ∧
    exec .rDutyIntClear s = .next (s.respond 0) ∧
    (∃ w, exec .rStrmIntRaw s = .next (s.respond w) ∧ w.toNat = (s.strm.latch.raw &&& 0x0F0F).toNat) ∧
    (∃ w, exec .rStrmIntStatus s = .next (s.respond w) ∧
      w.toNat = (s.strm.latch.raw &&& s.strm.latch.enable &&& 0x0F0F).toNat) ∧
    (∃ w, exec .rStrmIntEnable s = .next (s.respond w) ∧ w.toNat = (s.strm.latch.enable &&& 0x0F0F).toNat) ∧
    exec .rStrmIntClear s = .next (s.respond 0)

/-- R148: a `STRM` enable write sets the implemented bits 3:0 and 11:8 and nothing else. -/
def Obligations.StrmIntEnableSetsTheImplementedBits : Prop :=
  ∀ (s : State) (v : Word),
    decode (.busWrite .strm 0x0C8 32 v) = .ok (.wStrmIntEnable v) ∧
    ∃ en, exec (.wStrmIntEnable v) s = .next (s.withStrm { s.strm with latch := ⟨s.strm.latch.raw, en⟩ }) ∧
      ∀ b : Fin 16, en.getLsbD b.val =
        (decide (b.val ≤ 3 ∨ (8 ≤ b.val ∧ b.val ≤ 11)) && v.getLsbD b.val)

/-! ## Pins -/

/-- R167, R168 with R165: a level write sets the levels its word carries, and latches in both contexts each pin whose
level changed and whose trigger type fires; nothing else changes. -/
def Obligations.LevelWriteLatchesExactlyTheFiringPins : Prop :=
  ∀ (s : State) (hi : Bool) (v : Word),
    decode (.busWrite .gpio (if hi then 0x004 else 0x000) 32 v) = .ok (levelWrite hi v) ∧
    ∃ g, exec (levelWrite hi v) s = .next (s.withGpio g) ∧
      g.trig = s.gpio.trig ∧ g.outsel = s.gpio.outsel ∧ g.insel = s.gpio.insel ∧
      ∀ p : PinIx,
        let l0 := s.gpio.level.getLsbD p.val
        let l1 := if inHalf hi p then pinBit v p else l0
        g.level.getLsbD p.val = l1 ∧
        ∀ c : Ctx, (g.latch c).enable = (s.gpio.latch c).enable ∧
          (g.latch c).raw.getLsbD p.val =
            ((s.gpio.latch c).raw.getLsbD p.val || (l0 != l1 && fires (s.gpio.trig.get p) l0 l1))

/-- R165, R166: a pin input event sets one level, and latches the pin in both contexts if the level changed and its
trigger type fires; nothing else changes. -/
def Obligations.PinInputSetsOneLevelAndLatchesOnFire : Prop :=
  ∀ (s : State) (p : PinIx) (v : Bool),
    ∃ g, exec (.pinIn p v) s = .next (s.withGpio g) ∧
      g.trig = s.gpio.trig ∧ g.outsel = s.gpio.outsel ∧ g.insel = s.gpio.insel ∧
      ∀ j : PinIx, g.level.getLsbD j.val = (if j = p then v else s.gpio.level.getLsbD j.val) ∧
        ∀ c : Ctx, (g.latch c).enable = (s.gpio.latch c).enable ∧
          (g.latch c).raw.getLsbD j.val = ((s.gpio.latch c).raw.getLsbD j.val ||
            (decide (j = p) && s.gpio.level.getLsbD p.val != v &&
              fires (s.gpio.trig.get p) (s.gpio.level.getLsbD p.val) v))

/-- R169: a `PINp_CFG` write stores the trigger type and the two gate bits of its pin; no level, no raw bit and no other
pin changes. -/
def Obligations.PinCfgWriteStoresTypeAndGates : Prop :=
  ∀ (s : State) (p : PinIx) (v : Word),
    decode (.busWrite .gpio (0x100 + 4 * p.val) 32 v) = .ok (.wGpioPinCfg p v) ∧
    ∃ trig ea eb,
      exec (.wGpioPinCfg p v) s = .next (s.withGpio { s.gpio with
        trig := trig, ctxA := ⟨s.gpio.ctxA.raw, ea⟩, ctxB := ⟨s.gpio.ctxB.raw, eb⟩ }) ∧
      OneElem s.gpio.trig trig p (BitVec.ofNat 3 v.toNat) ∧
      ∀ j : PinIx,
        ea.getLsbD j.val = (if j = p then v.getLsbD 3 else s.gpio.ctxA.enable.getLsbD j.val) ∧
        eb.getLsbD j.val = (if j = p then v.getLsbD 4 else s.gpio.ctxB.enable.getLsbD j.val)

/-- R170: the level words and the pin configuration word. -/
def Obligations.LevelAndPinCfgWordsRead : Prop :=
  ∀ (s : State) (p : PinIx),
    (∃ w, exec .rGpioLevelLo s = .next (s.respond w) ∧ CarriesHalf false s.gpio.level w) ∧
    (∃ w, exec .rGpioLevelHi s = .next (s.respond w) ∧ CarriesHalf true s.gpio.level w) ∧
    (∃ w, exec (.rGpioPinCfg p) s = .next (s.respond w) ∧
      w.toNat = (s.gpio.trig.get p).toNat + 2 ^ 3 * (s.gpio.ctxA.enable.getLsbD p.val).toNat +
        2 ^ 4 * (s.gpio.ctxB.enable.getLsbD p.val).toNat)

/-! ## Crossbar -/

/-- R186, R187: a routing table write stores one entry and does nothing else. -/
def Obligations.RoutingWritesStoreOneEntry : Prop :=
  (∀ (s : State) (p : PinIx) (v : Word),
    decode (.busWrite .gpio (0x200 + 4 * p.val) 32 v) = .ok (.wGpioOutsel p v) ∧
    ∃ x, exec (.wGpioOutsel p v) s = .next (s.withGpio { s.gpio with outsel := x }) ∧
      OneElem s.gpio.outsel x p ⟨BitVec.ofNat 8 v.toNat, v.getLsbD 8, v.getLsbD 9⟩) ∧
  (∀ (s : State) (sig : SigIx) (v : Word),
    decode (.busWrite .gpio (0x400 + 4 * sig.val) 32 v) = .ok (.wGpioInsel sig v) ∧
    ∃ x, exec (.wGpioInsel sig v) s = .next (s.withGpio { s.gpio with insel := x }) ∧
      OneElem s.gpio.insel x sig ⟨BitVec.ofNat 6 v.toNat, v.getLsbD 6, v.getLsbD 7, v.getLsbD 8⟩)

/-- R188: the routing table words and their reset values. -/
def Obligations.RoutingWordsRead : Prop :=
  ∀ (s : State) (p : PinIx) (sig : SigIx),
    (∃ w, exec (.rGpioOutsel p) s = .next (s.respond w) ∧
      w.toNat = (s.gpio.outsel.get p).sel.toNat + 2 ^ 8 * (s.gpio.outsel.get p).force.toNat +
        2 ^ 9 * (s.gpio.outsel.get p).fval.toNat) ∧
    (∃ w, exec (.rGpioInsel sig) s = .next (s.respond w) ∧
      w.toNat = (s.gpio.insel.get sig).pin.toNat + 2 ^ 6 * (s.gpio.insel.get sig).inv.toNat +
        2 ^ 7 * (s.gpio.insel.get sig).force.toNat + 2 ^ 8 * (s.gpio.insel.get sig).fval.toNat) ∧
    ∃ t, exec .reset s = .next t ∧ exec (.rGpioOutsel p) t = .next (t.respond 0x100) ∧
      exec (.rGpioInsel sig) t = .next (t.respond 0x080)

/-- R190, R191: an announcement appends one event for every unforced entry that selects the signal, in ascending pin order
with the level and the parameter unchanged, and does nothing else. -/
def Obligations.AnnounceForwardsToBoundPinsOnly : Prop :=
  ∀ (s : State) (sig : SigIx) (level : Bool) (q : Option Word),
    ∃ es, exec (.announce sig level q) s = .next (s.withTrace (s.trace ++ es)) ∧
      (∀ e, e ∈ es ↔ ∃ p : PinIx, e = .pinOut p level q ∧ (s.gpio.outsel.get p).force = false ∧
        (s.gpio.outsel.get p).sel.toNat = sig.val) ∧
      es.Pairwise (fun a b => ∀ p p', a = .pinOut p level q → b = .pinOut p' level q → p < p')

/-- R193, R192: the level on a logical input signal and the constant of a forced pin; both are 0 after reset, and then no
announcement reaches a pin. -/
def Obligations.ForcedPinsAndInputSignals : Prop :=
  ∀ (s : State) (p : PinIx) (sig : SigIx),
    s.pinForced p =
      (if (s.gpio.outsel.get p).force = true then some (s.gpio.outsel.get p).fval else none) ∧
    s.inSignal sig =
      (if (s.gpio.insel.get sig).force = true then (s.gpio.insel.get sig).fval
       else if h : (s.gpio.insel.get sig).pin.toNat ≤ 48 then
         s.gpio.level[(s.gpio.insel.get sig).pin.toNat] != (s.gpio.insel.get sig).inv
       else (s.gpio.insel.get sig).inv) ∧
    ∃ t, exec .reset s = .next t ∧ t.pinForced p = some false ∧ t.inSignal sig = false ∧
      ∀ (out : SigIx) (level : Bool) (q : Option Word), exec (.announce out level q) t = .next t

/-! ## Duty engine -/

/-- R206, R208 and 45_multi_timer_compare.md R242: `DutyTimes` and `McmpTimes`. -/
def Obligations.OnAndOffTimeFormulas : Prop :=
  (∀ (p : Params) (c : DutyCh),
    let clk := if c.clkSel then p.dutyClkHz1 else p.dutyClkHz0
    let maxc := 2 ^ c.res.toNat
    let period := c.div.toNat * maxc * 1000000000 / clk
    dutyTimes p c =
      if clk = 0 ∨ c.div.toNat = 0 ∨ c.res.toNat = 0 then none
      else if period < 2 then none
      else some (min (max (c.duty.toNat * period / maxc) 1) (period - 1),
        period - min (max (c.duty.toNat * period / maxc) 1) (period - 1))) ∧
  (∀ (s : State) (o : OpIx) (x : Cmp),
    let clk := s.params.mcmpClkHz
    let ps := (s.mcmp.tmr.get o).presc.toNat
    let pc := (s.mcmp.tmr.get o).period.toNat
    let c := (if x = .a then (s.mcmpOp o).cmpa else (s.mcmpOp o).cmpb).toNat
    let period := ps * pc * 1000000000 / clk
    s.mcmpTimes o x =
      if clk = 0 ∨ ps = 0 ∨ pc = 0 then none
      else if period < 2 then none
      else some (min (max (c * period / pc) 1) (period - 1), period - min (max (c * period / pc) 1) (period - 1)))

/-- R207, and 45_multi_timer_compare.md R242: on and off add up to the period exactly and neither is empty, for both
toggling engines; a duty count of 0 gives the shortest on time, one of `maxc` or more the longest. -/
def Obligations.OnAndOffAddUpToThePeriod : Prop :=
  (∀ (p : Params) (c : DutyCh) (on off : Nat), dutyTimes p c = some (on, off) →
    let period := c.div.toNat * 2 ^ c.res.toNat * 1000000000 / dutyClk p c.clkSel
    on + off = period ∧ 1 ≤ on ∧ on ≤ period - 1 ∧ 1 ≤ off ∧ off ≤ period - 1 ∧
      (c.duty = 0 → on = 1) ∧ (2 ^ c.res.toNat ≤ c.duty.toNat → on = period - 1)) ∧
  (∀ (s : State) (o : OpIx) (x : Cmp) (on off : Nat), s.mcmpTimes o x = some (on, off) →
    on + off = (s.mcmp.tmr.get o).presc.toNat * (s.mcmp.tmr.get o).period.toNat * 1000000000 / s.params.mcmpClkHz ∧
      1 ≤ on ∧ 1 ≤ off)

/-- R216 with R212, R213: a `CHn_CONF` write stores the fields and starts the channel HIGH with one deadline, or leaves it
INERT and LOW with none; a change of phase is announced; nothing else changes. -/
def Obligations.DutyConfWriteStartsOrStops : Prop :=
  ∀ (s : State) (n : DutyIx) (v : Word),
    decode (.busWrite .duty (0x10 * n.val) 32 v) = .ok (.wDutyChConf n v) ∧
    let c : DutyCh := { s.dutyCh n with
      res := BitVec.ofNat 5 v.toNat, clkSel := v.getLsbD 5, div := BitVec.ofNat 18 (v.toNat / 2 ^ 6), en := v.getLsbD 31 }
    ∃ d x es, exec (.wDutyChConf n v) s = .next (((s.withDuty d).withSched x).withTrace (s.trace ++ es)) ∧
      d.latch = s.duty.latch ∧
      (match (if v.getLsbD 31 then dutyTimes s.params c else none) with
       | some (on, _) => OneElem s.duty.ch d.ch n { c with running := true, phase := true } ∧
           OneSlot s.sched x (.duty n) (some (s.now + on)) ∧
           es = phaseEvents s (s.params.dutySigBase + n.val) (s.dutyCh n).phase true
       | none => OneElem s.duty.ch d.ch n { c with running := false, phase := false } ∧
           OneSlot s.sched x (.duty n) none ∧
           es = phaseEvents s (s.params.dutySigBase + n.val) (s.dutyCh n).phase false)

/-- R217 with R212: a `CHn_DUTY` write stores the duty; a running channel is re-armed HIGH from `now`; nothing else
changes. -/
def Obligations.DutyWriteReArmsARunningChannel : Prop :=
  ∀ (s : State) (n : DutyIx) (v : Word),
    decode (.busWrite .duty (0x004 + 0x10 * n.val) 32 v) = .ok (.wDutyChDuty n v) ∧
    let c : DutyCh := { s.dutyCh n with duty := v }
    ((s.dutyCh n).running = false →
      ∃ x, exec (.wDutyChDuty n v) s = .next (s.withDuty { s.duty with ch := x }) ∧ OneElem s.duty.ch x n c) ∧
    ((s.dutyCh n).running = true →
      ∃ d x es, exec (.wDutyChDuty n v) s = .next (((s.withDuty d).withSched x).withTrace (s.trace ++ es)) ∧
        d.latch = s.duty.latch ∧
        (match dutyTimes s.params c with
         | some (on, _) => OneElem s.duty.ch d.ch n { c with phase := true } ∧
             OneSlot s.sched x (.duty n) (some (s.now + on)) ∧
             es = phaseEvents s (s.params.dutySigBase + n.val) (s.dutyCh n).phase true
         | none => OneElem s.duty.ch d.ch n { c with running := false, phase := false } ∧
             OneSlot s.sched x (.duty n) none ∧
             es = phaseEvents s (s.params.dutySigBase + n.val) (s.dutyCh n).phase false))

/-- R218: a `CHn_FADE` write stores the fade fields, loads the remaining steps, clears the cycle counter and does nothing
else. -/
def Obligations.FadeWriteLoadsTheFadeState : Prop :=
  ∀ (s : State) (n : DutyIx) (v : Word),
    decode (.busWrite .duty (0x008 + 0x10 * n.val) 32 v) = .ok (.wDutyChFade n v) ∧
    ∃ x, exec (.wDutyChFade n v) s = .next (s.withDuty { s.duty with ch := x }) ∧
      OneElem s.duty.ch x n { s.dutyCh n with
        step := BitVec.ofNat 10 v.toNat, cycles := BitVec.ofNat 10 (v.toNat / 2 ^ 10)
        num := BitVec.ofNat 10 (v.toNat / 2 ^ 20), dir := v.getLsbD 30
        remain := BitVec.ofNat 10 (v.toNat / 2 ^ 20), cyc := 0 }

/-- R214 with R215: the callback of a duty channel toggles and announces the phase, takes the fade step on entering LOW,
recomputes the times and arms the new phase, or goes INERT; fade complete latches only if enabled; nothing else changes. -/
def Obligations.DutyFireTogglesFadesAndReArms : Prop :=
  ∀ (s : State) (n : DutyIx), s.sched.get (.duty n) = some s.now →
    let c0 := s.dutyCh n
    let c : DutyCh := if c0.phase then { fadedCh c0 with phase := false } else { c0 with phase := true }
    let sig := s.params.dutySigBase + n.val
    ∃ d x es, exec (.fireDuty n) s = .next (((s.withDuty d).withSched x).withTrace (s.trace ++ es)) ∧
      d.latch.enable = s.duty.latch.enable ∧
      (if c0.phase = true ∧ fadeEnds c0 ∧ s.duty.latch.enable.getLsbD n.val = true then
        SetsBit s.duty.latch.raw d.latch.raw n.val
       else d.latch.raw = s.duty.latch.raw) ∧
      (match dutyTimes s.params c with
       | some (on, off) => OneElem s.duty.ch d.ch n c ∧
           OneSlot s.sched x (.duty n) (some (s.now + (if c.phase then on else off))) ∧
           es = forwards s sig c.phase none
       | none => OneElem s.duty.ch d.ch n { c with running := false, phase := false } ∧
           OneSlot s.sched x (.duty n) none ∧
           es = forwards s sig c.phase none ++ phaseEvents s sig c.phase false)

/-- R219, R220: the configuration, duty, fade and percent words; no callback changes the stored `EN` and `NUM`. -/
def Obligations.DutyWordsRead : Prop :=
  ∀ (s : State) (n : DutyIx),
    (∃ w, exec (.rDutyChConf n) s = .next (s.respond w) ∧
      w.toNat = (s.dutyCh n).res.toNat + 2 ^ 5 * (s.dutyCh n).clkSel.toNat + 2 ^ 6 * (s.dutyCh n).div.toNat +
        2 ^ 31 * (s.dutyCh n).en.toNat) ∧
    exec (.rDutyChDuty n) s = .next (s.respond (s.dutyCh n).duty) ∧
    (∃ w, exec (.rDutyChFade n) s = .next (s.respond w) ∧
      w.toNat = (s.dutyCh n).step.toNat + 2 ^ 10 * (s.dutyCh n).cycles.toNat + 2 ^ 20 * (s.dutyCh n).num.toNat +
        2 ^ 30 * (s.dutyCh n).dir.toNat) ∧
    (∃ w, exec (.rDutyChPct n) s = .next (s.respond w) ∧
      w.toNat = if (s.dutyCh n).res.toNat = 0 then 0
        else min 100 (100 * (s.dutyCh n).duty.toNat / (2 ^ (s.dutyCh n).res.toNat - 1))) ∧
    ∀ (m : DutyIx) (t : State), exec (.fireDuty m) s = .next t →
      (t.dutyCh n).en = (s.dutyCh n).en ∧ (t.dutyCh n).num = (s.dutyCh n).num

/-- R209: no drift: with unchanged registers and no fade configured, `k` periods after a HIGH phase began at `now` the next
HIGH phase begins at exactly `now + k * (on + off)`, whatever `k`. Time passes by `ADVANCE`, which no other token's deadline
stops before then. -/
def Obligations.DutyPeriodsDoNotDrift : Prop :=
  ∀ (s : State) (n : DutyIx) (on off k : Nat),
    (s.dutyCh n).phase = true → dutyTimes s.params (s.dutyCh n) = some (on, off) → NoFade (s.dutyCh n) →
    s.sched.get (.duty n) = some (s.now + on) →
    (∀ tok d, tok ≠ .duty n → s.sched.get tok = some d → s.now + k * (on + off) ≤ d) →
    ∃ t, dutyToggles n (2 * k) s = some t ∧ t.now = s.now + k * (on + off) ∧ t.dutyCh n = s.dutyCh n ∧
      t.sched.get (.duty n) = some (s.now + k * (on + off) + on)

/-- R209, as a step invariant: a channel locked to the grid of `t0` stays locked under every step that neither writes a
register of the channel nor resets the block; a start locks it to the grid of `now`; and every HIGH phase of a locked
channel begins on the grid. -/
def Obligations.DutyPhaseStaysLocked : Prop :=
  (∀ (s t : State) (n : DutyIx) (t0 period : Nat), PhaseLocked n t0 period s →
    (∀ r rest i, s.inbox = r :: rest → decode r = .ok i → ¬ Reconfigures n i) →
    step s = .next t → PhaseLocked n t0 period t) ∧
  (∀ (s : State) (n : DutyIx) (v : Word) (on off : Nat), v.getLsbD 31 = true → NoFade (s.dutyCh n) →
    dutyTimes s.params (setDutyConf (s.dutyCh n) v) = some (on, off) →
    ∃ t, exec (.wDutyChConf n v) s = .next t ∧ (t.dutyCh n).phase = true ∧ PhaseLocked n s.now (on + off) t) ∧
  (∀ (s : State) (n : DutyIx) (t0 period : Nat), PhaseLocked n t0 period s → (s.dutyCh n).phase = false →
    s.sched.get (.duty n) = some s.now →
    ∃ t k, exec (.fireDuty n) s = .next t ∧ (t.dutyCh n).phase = true ∧ t.now = t0 + k * period ∧
      PhaseLocked n t0 period t)

/-! ## Compare engine -/

/-- R243, R244: a `TMRt_CFG` write stores one timer and an `OPo_MODE` write two swap bits; neither arms, re-arms or cancels
anything or changes anything else. -/
def Obligations.TimerAndModeWritesStoreOnly : Prop :=
  (∀ (s : State) (i : TmrIx) (v : Word),
    decode (.busWrite .mcmp (4 * i.val) 32 v) = .ok (.wMcmpTmrCfg i v) ∧
    ∃ x, exec (.wMcmpTmrCfg i v) s = .next (s.withMcmp { s.mcmp with tmr := x }) ∧
      OneElem s.mcmp.tmr x i ⟨BitVec.ofNat 8 v.toNat, BitVec.ofNat 16 (v.toNat / 2 ^ 8)⟩) ∧
  (∀ (s : State) (o : OpIx) (v : Word),
    decode (.busWrite .mcmp (0x040 + 0x10 * o.val) 32 v) = .ok (.wMcmpOpMode o v) ∧
    ∃ x, exec (.wMcmpOpMode o v) s = .next (s.withMcmp { s.mcmp with op := x }) ∧
      OneElem s.mcmp.op x o { s.mcmpOp o with aSwap := v.getLsbD 0, bSwap := v.getLsbD 1 })

/-- R241, R242, R245, R246, R250, R251: a compare write stores the value; a non-zero, changed one arms the mapped output
HIGH, or leaves it INERT and LOW where the timer is inert; nothing else changes. -/
def Obligations.CompareWriteArmsTheMappedOutput : Prop :=
  ∀ (s : State) (o : OpIx) (x : Cmp) (v : Word),
    let i : Instr := match x with
      | .a => .wMcmpOpCmpa o v
      | .b => .wMcmpOpCmpb o v
    let old := match x with
      | .a => (s.mcmpOp o).cmpa
      | .b => (s.mcmpOp o).cmpb
    let new := BitVec.ofNat 16 v.toNat
    let op' : Oper := match x with
      | .a => { s.mcmpOp o with cmpa := new }
      | .b => { s.mcmpOp o with cmpb := new }
    let k : OutIx := match x with
      | .a => if (s.mcmpOp o).aSwap then 1 else 0
      | .b => if (s.mcmpOp o).bSwap then 0 else 1
    let ps := (s.mcmp.tmr.get o).presc.toNat
    let pc := (s.mcmp.tmr.get o).period.toNat
    let period := ps * pc * 1000000000 / s.params.mcmpClkHz
    let sig := s.params.mcmpSigBase + 2 * o.val + k.val
    decode (.busWrite .mcmp ((if x = .a then 0x044 else 0x048) + 0x10 * o.val) 32 v) = .ok i ∧
    ∃ m y es, exec i s = .next (((s.withMcmp m).withSched y).withTrace (s.trace ++ es)) ∧
      m.tmr = s.mcmp.tmr ∧ OneElem s.mcmp.op m.op o op' ∧
      (if new = 0 ∨ new = old then m.out = s.mcmp.out ∧ y = s.sched ∧ es = []
       else if s.params.mcmpClkHz = 0 ∨ ps = 0 ∨ pc = 0 ∨ period < 2 then
         OneOut s.mcmp.out m.out o k ⟨false, false, x⟩ ∧ OneSlot s.sched y (.mcmp o k) none ∧
           es = phaseEvents s sig (s.mcmpOut o k).phase false
       else
         OneOut s.mcmp.out m.out o k ⟨true, true, x⟩ ∧
           OneSlot s.sched y (.mcmp o k) (some (s.now + min (max (new.toNat * period / pc) 1) (period - 1))) ∧
           es = phaseEvents s sig (s.mcmpOut o k).phase true)

/-- R248: the callback of an output toggles and announces the phase, recomputes the times from the recorded source and
arms the new phase, or goes INERT and LOW; nothing else changes. -/
def Obligations.CompareFireTogglesAndReArms : Prop :=
  ∀ (s : State) (o : OpIx) (k : OutIx), s.sched.get (.mcmp o k) = some s.now →
    let c0 := s.mcmpOut o k
    let ph := !c0.phase
    let sig := s.params.mcmpSigBase + 2 * o.val + k.val
    ∃ m y es, exec (.fireMcmp o k) s = .next (((s.withMcmp m).withSched y).withTrace (s.trace ++ es)) ∧
      m.tmr = s.mcmp.tmr ∧ m.op = s.mcmp.op ∧
      (match s.mcmpTimes o c0.src with
       | some (on, off) => OneOut s.mcmp.out m.out o k { c0 with phase := ph } ∧
           OneSlot s.sched y (.mcmp o k) (some (s.now + (if ph then on else off))) ∧
           es = forwards s sig ph none
       | none => OneOut s.mcmp.out m.out o k { c0 with running := false, phase := false } ∧
           OneSlot s.sched y (.mcmp o k) none ∧
           es = forwards s sig ph none ++ phaseEvents s sig ph false)

/-- R249: the timer, mode and compare words. -/
def Obligations.CompareWordsRead : Prop :=
  ∀ (s : State) (o : OpIx),
    (∃ w, exec (.rMcmpTmrCfg o) s = .next (s.respond w) ∧
      w.toNat = (s.mcmp.tmr.get o).presc.toNat + 2 ^ 8 * (s.mcmp.tmr.get o).period.toNat) ∧
    (∃ w, exec (.rMcmpOpMode o) s = .next (s.respond w) ∧
      w.toNat = (s.mcmpOp o).aSwap.toNat + 2 * (s.mcmpOp o).bSwap.toNat) ∧
    (∃ w, exec (.rMcmpOpCmpa o) s = .next (s.respond w) ∧ w.toNat = (s.mcmpOp o).cmpa.toNat) ∧
    (∃ w, exec (.rMcmpOpCmpb o) s = .next (s.respond w) ∧ w.toNat = (s.mcmpOp o).cmpb.toNat)

/-! ## Streaming engine -/

/-- R285 with R278, R279: a `CHn_CONF` write stops the channel, stores the fields and, with `EN` 1 and a runnable
configuration, starts it from word 0 with the first tick at once; nothing else changes. -/
def Obligations.StreamConfWriteRestartsTheChannel : Prop :=
  ∀ (s : State) (n : StrmIx) (v : Word),
    decode (.busWrite .strm (0x10 * n.val) 32 v) = .ok (.wStrmChConf n v) ∧
    let c : StrmCh := { s.strmCh n with
      div := BitVec.ofNat 8 v.toNat, burst := BitVec.ofNat 8 (v.toNat / 2 ^ 8), en := v.getLsbD 31
      running := false, pending := false }
    ∃ q x t, exec (.wStrmChConf n v) s = .next t ∧ q.latch = s.strm.latch ∧ OneSlot s.sched x (.strm n) none ∧
      (v.getLsbD 31 = false → OneElem s.strm.ch q.ch n c ∧ t = (s.withStrm q).withSched x) ∧
      (v.getLsbD 31 = true → ¬ Runnable s.params c →
        OneElem s.strm.ch q.ch n { c with cursor := 0, sent := 0 } ∧ t = (s.withStrm q).withSched x) ∧
      (v.getLsbD 31 = true → Runnable s.params c →
        OneElem s.strm.ch q.ch n { c with cursor := 0, sent := 0, running := true } ∧
          Drained n ((s.withStrm q).withSched x) t)

/-- R288 with R280 to R284: the burst callback empties the slot and runs one tick. -/
def Obligations.StreamFireRunsOneTick : Prop :=
  ∀ (s : State) (n : StrmIx), s.sched.get (.strm n) = some s.now →
    ∃ x t, OneSlot s.sched x (.strm n) none ∧ exec (.fireStrm n) s = .next t ∧ Drained n (s.withSched x) t

/-- R287: an `INT_CLEAR` write clears the named bits, then resumes each channel with a deferred emission that is no longer
blocked, in ascending order. -/
def Obligations.StreamClearResumesDeferredEmissions : Prop :=
  ∀ (s : State) (v : Word),
    decode (.busWrite .strm 0x0CC 32 v) = .ok (.wStrmIntClear v) ∧
    ∃ q t1 t2 t3 t4, exec (.wStrmIntClear v) s = .next t4 ∧
      q.ch = s.strm.ch ∧ q.latch.enable = s.strm.latch.enable ∧
      (∀ b, b < 16 → q.latch.raw.getLsbD b =
        (s.strm.latch.raw.getLsbD b && !(decide (b ≤ 3 ∨ (8 ≤ b ∧ b ≤ 11)) && v.getLsbD b))) ∧
      Resumed 0 (s.withStrm q) t1 ∧ Resumed 1 t1 t2 ∧ Resumed 2 t2 t3 ∧ Resumed 3 t3 t4

/-- R286, R289: a ring write stores one word and does nothing else; the channel word and the ring words read back. -/
def Obligations.RingWritesAndStreamReads : Prop :=
  ∀ (s : State) (n : StrmIx) (i : RingIx) (v : Word),
    decode (.busWrite .strm (0x400 + 0x100 * n.val + 4 * i.val) 32 v) = .ok (.wStrmRam n i v) ∧
    (∃ x r, exec (.wStrmRam n i v) s = .next (s.withStrm { s.strm with ch := x }) ∧
      OneElem (s.strmCh n).ring r i v ∧ OneElem s.strm.ch x n { s.strmCh n with ring := r }) ∧
    (∃ w, exec (.rStrmChConf n) s = .next (s.respond w) ∧
      w.toNat = (s.strmCh n).div.toNat + 2 ^ 8 * (s.strmCh n).burst.toNat + 2 ^ 31 * (s.strmCh n).en.toNat) ∧
    exec (.rStrmRam n i) s = .next (s.respond ((s.strmCh n).ring.get i))

/-- R291 (a), R281: an operation at whose start a channel is blocked emits nothing of that channel, unless it is an
`INT_CLEAR` write. -/
def Obligations.BlockedChannelsEmitNothing : Prop :=
  ∀ (i : Instr) (s t : State) (n : StrmIx), exec i s = .next t → Blocked s n → (∀ v, i ≠ .wStrmIntClear v) →
    ∃ es, t.trace = s.trace ++ es ∧ ∀ e, e ∈ es → isOutputOf n e = false

/-- R284: which sinks are attached changes no state but the trace, and the trace only in `Warn` for `SinkXfer`.R60: no
rule reads the window bases. -/
def Obligations.SinksChangeOnlyTheirEventsAndBasesNothing : Prop :=
  (∀ (i : Instr) (s t : State) (sinks : Vector Bool 4), exec i s = .next t →
    ∃ t' es es', exec i (withSinks s sinks) = .next t' ∧ t'.withTrace [] = (withSinks t sinks).withTrace [] ∧
      t.trace = s.trace ++ es ∧ t'.trace = s.trace ++ es' ∧ es'.map eraseSink = es.map eraseSink) ∧
  ∀ (i : Instr) (s t : State) (gpio duty mcmp strm : Nat), exec i s = .next t →
    exec i (withBases s gpio duty mcmp strm) = .next (withBases t gpio duty mcmp strm)

/-! ## Clock -/

/-- R302: `ADVANCE(t)` runs exactly when t is not before `now` and passes no deadline, and then only `now` changes. -/
def Obligations.AdvanceNeverPassesADeadline : Prop :=
  ∀ (s : State) (t : Nat),
    ((s.now ≤ t ∧ ∀ tok d, s.sched.get tok = some d → t ≤ d) → exec (.advance t) s = .next (s.withNow t)) ∧
    (¬ (s.now ≤ t ∧ ∀ tok d, s.sched.get tok = some d → t ≤ d) → ∀ u, exec (.advance t) s ≠ .next u)

/-- R303: `FIRE(tok)` runs exactly when the token's deadline is `now`, and empties or re-arms that token's slot alone. -/
def Obligations.FireRunsExactlyWhenDue : Prop :=
  ∀ (s : State) (tok : Token),
    (s.sched.get tok = some s.now → ∃ t, exec tok.fireOp s = .next t ∧
      ∀ tok', tok' ≠ tok → t.sched.get tok' = s.sched.get tok') ∧
    (s.sched.get tok ≠ some s.now → ∀ u, exec tok.fireOp s ≠ .next u)

/-- R303 (decision D40), I1: two tokens due together may fire in either order: the state after both is the same but for the
order of the two groups of events. -/
def Obligations.DueCallbacksCommute : Prop :=
  ∀ (s : State) (a b : Token), a ≠ b → s.sched.get a = some s.now → s.sched.get b = some s.now →
    ∃ ta tab tb tba ea eb,
      exec a.fireOp s = .next ta ∧ exec b.fireOp ta = .next tab ∧
      exec b.fireOp s = .next tb ∧ exec a.fireOp tb = .next tba ∧
      tab.withTrace [] = tba.withTrace [] ∧
      tab.trace = s.trace ++ ea ++ eb ∧ tba.trace = s.trace ++ eb ++ ea

/-- R304: in a state of the invariant, every slot an operation changes is emptied or armed strictly later than `now`. -/
def Obligations.NewDeadlinesAreStrictlyLater : Prop :=
  ∀ (i : Instr) (s t : State) (tok : Token), Inv s → exec i s = .next t →
    t.sched.get tok = s.sched.get tok ∨ t.sched.get tok = none ∨ ∃ d, t.sched.get tok = some d ∧ t.now < d

/-- R107: after the script word `RUN t` the time is t and no deadline is at or before it. -/
def Obligations.RunLeavesNothingDue : Prop :=
  ∀ (fuel t : Nat) (s u : State), s.runTo t fuel = some u →
    u.now = t ∧ ∀ tok d, u.sched.get tok = some d → t < d

/-! ## Reset -/

/-- R50, R350, R351: `RESET` always completes, gives every piece of state its value of R50, leaves `now` and the trace, and
equals instantiation. -/
def Obligations.ResetGivesTheTabledValues : Prop :=
  (∀ s : State, ∃ t, exec .reset s = .next t ∧
    t.now = s.now ∧ t.trace = s.trace ∧
    (∀ tok, t.sched.get tok = none) ∧
    t.gpio.level = 0 ∧ (∀ p, t.gpio.trig.get p = 0) ∧ (∀ c, t.gpio.latch c = ⟨0, 0⟩) ∧
    (∀ p, t.gpio.outsel.get p = ⟨0, true, false⟩) ∧ (∀ sig, t.gpio.insel.get sig = ⟨0, false, true, false⟩) ∧
    (∀ n, t.dutyCh n = ⟨0, false, 0, false, 0, 0, 0, 0, false, false, false, 0, 0⟩) ∧ t.duty.latch = ⟨0, 0⟩ ∧
    (∀ i, t.mcmp.tmr.get i = ⟨0, 0⟩) ∧ (∀ o, t.mcmpOp o = ⟨0, 0, false, false⟩) ∧
    (∀ o k, t.mcmpOut o k = ⟨false, false, .a⟩) ∧
    (∀ n, t.strmCh n = ⟨0, 0, false, Vector.replicate 64 0, false, 0, 0, false⟩) ∧ t.strm.latch = ⟨0, 0⟩ ∧
    t.gpioIrq = false ∧ t.dutyIrq = false ∧ t.strmIrq = false ∧ t.mcmpIrq = false) ∧
  ∀ P : Params, exec .reset (State.initial P) = .next (State.initial P)

/-- The invariant holds at instantiation under any parameters, and at the model's reset state (the model's choices of `now`
and of the reference parameters, log entries 4 and 5). -/
def Obligations.InitialStatesMeetTheInvariant : Prop := (∀ P : Params, Inv (State.initial P)) ∧ Inv State.reset

/-! ## Whole-machine rules -/

/-- 10_state.md R48, 46_stream_waveform.md R291: every step from a state of the invariant leads to one. -/
def Obligations.EveryStepKeepsTheInvariant : Prop := ∀ s t : State, Inv s → step s = .next t → Inv t

/-- R320: no operation and no step raises a fault. -/
def Obligations.NoOperationRaisesAFault : Prop :=
  ∀ (s : State) (f : Fault), step s ≠ .fault f ∧ ∀ i : Instr, exec i s ≠ .fault f

/-- R11, R23: every operation completes in every state in which it is enabled, in zero virtual time but for `ADVANCE`; time
never runs back. -/
def Obligations.EveryEnabledOperationCompletes : Prop :=
  ∀ (i : Instr) (s : State), Enabled i s →
    ∃ t, exec i s = .next t ∧ s.now ≤ t.now ∧ ((∀ u, i ≠ .advance u) → t.now = s.now)

/-- R52: the output trace only grows, at its end, and the block never reads it: what an operation does and emits is the same
whatever the trace holds. -/
def Obligations.TraceIsAppendedToAndNeverRead : Prop :=
  ∀ (i : Instr) (s t : State), exec i s = .next t →
    ∃ es, t.trace = s.trace ++ es ∧
      ∀ old : List Event, exec i (s.withTrace old) = .next (t.withTrace (old ++ es))

/-- R62: an operation changes only the part it reaches, the schedule slots of that part and the trace; no operation but a
read writes `busData`, and none changes the parameters or the inbox (the model's fields, log entries 1, 3, 4). -/
def Obligations.OperationsStayInTheirPeripheral : Prop :=
  ∀ (i : Instr) (s t : State), exec i s = .next t →
    t.params = s.params ∧ t.inbox = s.inbox ∧ (isRead i = false → t.busData = s.busData) ∧
    (reach i ≠ .everything →
      (reach i ≠ .gpio → t.gpio = s.gpio) ∧
      (∀ n, reach i ≠ .duty n → t.dutyCh n = s.dutyCh n ∧ t.sched.get (.duty n) = s.sched.get (.duty n) ∧
        (reach i ≠ .dutyLatch → t.duty.latch.raw.getLsbD n.val = s.duty.latch.raw.getLsbD n.val)) ∧
      (reach i ≠ .dutyLatch → t.duty.latch.enable = s.duty.latch.enable) ∧
      (reach i ≠ .mcmp → t.mcmp = s.mcmp ∧ ∀ o k, t.sched.get (.mcmp o k) = s.sched.get (.mcmp o k)) ∧
      (reach i ≠ .strm → t.strm = s.strm ∧ ∀ n, t.sched.get (.strm n) = s.sched.get (.strm n)) ∧
      (reach i ≠ .clock → t.now = s.now))

/-- R151: a raw bit once set stays set until a clear write that names it succeeds or until `RESET`. -/
def Obligations.RawBitsStayUntilClearedOrReset : Prop :=
  ∀ (i : Instr) (s t : State), exec i s = .next t → i ≠ .reset →
    (∀ (c : Ctx) (p : PinIx), (s.gpio.latch c).raw.getLsbD p.val = true → (t.gpio.latch c).raw.getLsbD p.val = true ∨
      ∃ hi v, i = clearWrite c hi v ∧ inHalf hi p = true ∧ pinBit v p = true ∧
        ¬ (s.gpio.trig.get p = 4 ∧ s.gpio.level.getLsbD p.val = false) ∧
        ¬ (s.gpio.trig.get p = 5 ∧ s.gpio.level.getLsbD p.val = true)) ∧
    (∀ n : DutyIx, s.duty.latch.raw.getLsbD n.val = true → t.duty.latch.raw.getLsbD n.val = true ∨
      ∃ v, i = .wDutyIntClear v ∧ v.getLsbD n.val = true) ∧
    (∀ b, b < 16 → s.strm.latch.raw.getLsbD b = true → t.strm.latch.raw.getLsbD b = true ∨
      ∃ v, i = .wStrmIntClear v ∧ v.getLsbD b = true)

/-- R46: a raw bit is newly set only by a level change of its pin, by the fire of its duty channel while it is enabled, or
by a tick of its stream channel. A tick can run inside a `CHn_CONF` or `INT_CLEAR` write: R133's last sentence is read as log
entry 14 says. -/
def Obligations.RawBitsAreSetOnlyByTheirSources : Prop :=
  ∀ (i : Instr) (s t : State), exec i s = .next t →
    (∀ (c : Ctx) (p : PinIx), (s.gpio.latch c).raw.getLsbD p.val = false → (t.gpio.latch c).raw.getLsbD p.val = true →
      t.gpio.level.getLsbD p.val ≠ s.gpio.level.getLsbD p.val ∧
        fires (s.gpio.trig.get p) (s.gpio.level.getLsbD p.val) (t.gpio.level.getLsbD p.val) = true) ∧
    (∀ n : DutyIx, s.duty.latch.raw.getLsbD n.val = false → t.duty.latch.raw.getLsbD n.val = true →
      i = .fireDuty n ∧ s.duty.latch.enable.getLsbD n.val = true) ∧
    (∀ b, b < 16 → s.strm.latch.raw.getLsbD b = false → t.strm.latch.raw.getLsbD b = true →
      ∃ n : StrmIx, (b = n.val ∨ b = 8 + n.val) ∧ Ticks n s i)

/-- R25, R165: a pin's level changes only by a pin event on it, by a level write that carries it, or by `RESET`. -/
def Obligations.LevelsChangeOnlyThroughSetLevel : Prop :=
  ∀ (i : Instr) (s t : State) (p : PinIx), exec i s = .next t →
    t.gpio.level.getLsbD p.val ≠ s.gpio.level.getLsbD p.val →
    (∃ v, i = .pinIn p v) ∨ (∃ hi v, i = levelWrite hi v ∧ inHalf hi p = true) ∨ i = .reset

/-- R68: writing the same value twice in a row ends where writing it once does, for every written register but
`STRM.CHn_CONF` with `EN` 1 and, against R68's text and by R287, `STRM.INT_CLEAR` (log entry 15): that one can end elsewhere,
from a state of the invariant. -/
def Obligations.RepeatedWritesAreIdempotent : Prop :=
  (∀ (s t : State) (v : Word) (hi : Bool) (c : Ctx) (p : PinIx) (sig : SigIx) (n : DutyIx) (o : OpIx) (m : StrmIx)
    (r : RingIx) (i : Instr),
    i ∈ [levelWrite hi v, enableWrite c hi v, clearWrite c hi v, .wGpioPinCfg p v, .wGpioOutsel p v, .wGpioInsel sig v,
      .wDutyIntEnable v, .wDutyIntClear v, .wDutyChConf n v, .wDutyChDuty n v, .wDutyChFade n v, .wMcmpTmrCfg o v,
      .wMcmpOpMode o v, .wMcmpOpCmpa o v, .wMcmpOpCmpb o v, .wStrmRam m r v, .wStrmIntEnable v] →
    exec i s = .next t → exec i t = .next t) ∧
  (∀ (s t : State) (v : Word) (m : StrmIx), v.getLsbD 31 = false →
    exec (.wStrmChConf m v) s = .next t → exec (.wStrmChConf m v) t = .next t) ∧
  ∃ (s t u : State) (v : Word), Inv s ∧ exec (.wStrmIntClear v) s = .next t ∧ exec (.wStrmIntClear v) t = .next u ∧ u ≠ t
end

