-- ==== Sys2Proof/Laws/Data.lean ====
section
/-! SUPPORT. What the model's plain data does: a table with one entry replaced, a bit vector with one bit or one half
replaced. -/

namespace Sys2Proof.Machine

/-- Reading a table after one entry was replaced. -/
@[simp] theorem vector_get_set {α : Type} {k : Nat} (v : Vector α k) (i j : Fin k) (x : α) :
    (Vector.set v i.val x).get j = if j = i then x else v.get j := by
  simp only [Vector.get_eq_getElem, Vector.getElem_set]
  by_cases h : j = i
  · simp [h]
  · rw [if_neg h, if_neg (fun e => h (Fin.ext e.symm))]

/-- Two tables with the same entries are the same. -/
theorem vector_ext_get {α : Type} {k : Nat} {v w : Vector α k} (h : ∀ i : Fin k, v.get i = w.get i) : v = w := by
  apply Vector.ext
  intro i hi
  simpa [Vector.get_eq_getElem] using h ⟨i, hi⟩

/-- Replacing an entry by itself changes nothing. -/
@[simp] theorem vector_set_get {α : Type} {k : Nat} (v : Vector α k) (i : Fin k) : Vector.set v i.val (v.get i) = v := by
  apply vector_ext_get
  intro j
  rw [vector_get_set]
  split
  · simp [*]
  · rfl

/-- The later of two replacements of one entry stands. -/
@[simp] theorem vector_set_set {α : Type} {k : Nat} (v : Vector α k) (i : Fin k) (x y : α) :
    Vector.set (Vector.set v i.val x) i.val y = Vector.set v i.val y := by
  apply vector_ext_get
  intro j
  simp only [vector_get_set]
  split <;> rfl

/-- Replacements of different entries commute. -/
theorem vector_set_comm {α : Type} {k : Nat} (v : Vector α k) (i j : Fin k) (x y : α) (h : i ≠ j) :
    Vector.set (Vector.set v i.val x) j.val y = Vector.set (Vector.set v j.val y) i.val x := by
  apply vector_ext_get
  intro l
  simp only [vector_get_set]
  by_cases h1 : l = i
  · simp [h1, h]
  · simp [h1]

/-- A concatenation as a sum: the high part scaled by the width of the low one (00_scope.md R12). -/
theorem append_toNat_add {n m : Nat} (x : BitVec n) (y : BitVec m) : (x ++ y).toNat = x.toNat * 2 ^ m + y.toNat := by
  rw [BitVec.toNat_append, ← Nat.shiftLeft_add_eq_or_of_lt y.isLt, Nat.shiftLeft_eq]

/-- Zeros above a value do not change it (30_encoding.md R92). -/
theorem zero_append_toNat {n m : Nat} (x : BitVec m) : (0#n ++ x).toNat = x.toNat := by
  rw [append_toNat_add]; simp

/-- A field of a written word, in naturals (30_encoding.md R91). -/
theorem fieldOf_eq_ofNat (v : Word) (lo w : Nat) : fieldOf v lo w = BitVec.ofNat w (v.toNat / 2 ^ lo) := by
  apply BitVec.eq_of_toNat_eq
  simp [fieldOf, BitVec.extractLsb'_toNat, Nat.shiftRight_eq_div_pow]

/-- Reading a pin vector after one pin was set. -/
@[simp] theorem setPin_getLsbD (x : BitVec 49) (p j : PinIx) (v : Bool) :
    (setPin x p v).getLsbD j.val = if j = p then v else x.getLsbD j.val := by
  have hj := j.isLt
  by_cases h : j = p
  · subst h
    cases v <;> simp [setPin, hj]
  · have h' : ¬ j.val = p.val := fun e => h (Fin.ext e)
    cases v <;> simp [setPin, hj, h, h']

/-- Two pin vectors with the same pins are the same. -/
theorem pins_ext {x y : BitVec 49} (h : ∀ p : PinIx, x.getLsbD p.val = y.getLsbD p.val) : x = y := by
  apply BitVec.eq_of_getLsbD_eq
  intro i hi
  exact h ⟨i, hi⟩

/-- The pin vector after a `_LO` word was stored (30_encoding.md R94). -/
@[simp] theorem setPinsLo_getLsbD (x : BitVec 49) (v : Word) (p : PinIx) :
    (setPinsLo x v).getLsbD p.val = if p.val < 32 then v.getLsbD p.val else x.getLsbD p.val := by
  have hp := p.isLt
  simp only [setPinsLo, BitVec.getLsbD_append, BitVec.getLsbD_extractLsb']
  by_cases h : p.val < 32
  · simp [h]
  · have : 32 + (p.val - 32) = p.val := by omega
    have h2 : p.val - 32 < 17 := by omega
    simp [h, h2, this]

/-- The pin vector after a `_HI` word was stored (30_encoding.md R94). -/
@[simp] theorem setPinsHi_getLsbD (x : BitVec 49) (v : Word) (p : PinIx) :
    (setPinsHi x v).getLsbD p.val = if p.val < 32 then x.getLsbD p.val else v.getLsbD (p.val - 32) := by
  have hp := p.isLt
  simp only [setPinsHi, fieldOf, BitVec.getLsbD_append, BitVec.getLsbD_extractLsb']
  by_cases h : p.val < 32
  · simp [h]
  · have h2 : p.val - 32 < 17 := by omega
    simp [h, h2]

/-- The `_LO` word of a pin vector (30_encoding.md R94). -/
@[simp] theorem pinsLo_getLsbD (x : BitVec 49) (i : Nat) : (pinsLo x).getLsbD i = (decide (i < 32) && x.getLsbD i) := by
  simp [pinsLo, BitVec.getLsbD_extractLsb']

/-- The `_HI` word of a pin vector (30_encoding.md R94). -/
@[simp] theorem pinsHi_getLsbD (x : BitVec 49) (i : Nat) :
    (pinsHi x).getLsbD i = (decide (i < 17) && x.getLsbD (32 + i)) := by
  simp only [pinsHi, BitVec.getLsbD_append, BitVec.getLsbD_extractLsb']
  by_cases h : i < 17 <;> simp [h]

end Sys2Proof.Machine
end

