-- ==== Sys2Proof/Laws/Flags.lean ====
section
/-! SUPPORT. What the latch group component and the trigger decision do, bit by bit. -/

namespace Sys2Proof.Machine

@[simp] theorem Latch.hwSet_enable {w : Nat} (l : Latch w) (b : Nat) : (l.hwSet b).enable = l.enable := rfl
@[simp] theorem Latch.setEnable_raw {w : Nat} (l : Latch w) (e : BitVec w) : (l.setEnable e).raw = l.raw := rfl
@[simp] theorem Latch.setEnable_enable {w : Nat} (l : Latch w) (e : BitVec w) : (l.setEnable e).enable = e := rfl
@[simp] theorem Latch.clear_enable {w : Nat} (l : Latch w) (m t : BitVec w) : (l.clear m t).enable = l.enable := rfl

/-- 41_interrupt_latch.md R133: one raw bit is set. -/
@[simp] theorem Latch.hwSet_raw_getLsbD {w : Nat} (l : Latch w) (b i : Nat) :
    (l.hwSet b).raw.getLsbD i = (l.raw.getLsbD i || (decide (i < w) && decide (i = b))) := by
  by_cases hi : i < w
  · by_cases h : i = b
    · subst h; simp [Latch.hwSet, hi]
    · have h' : ¬ b = i := fun e => h e.symm
      simp only [Latch.hwSet, BitVec.getLsbD_or, BitVec.getLsbD_twoPow, hi, h, h', decide_false, Bool.and_false]
  · simp [BitVec.getLsbD_of_ge _ _ (Nat.le_of_not_lt hi), hi]

/-- R133: the events of two sources latch in either order. -/
theorem Latch.hwSet_comm {w : Nat} (l : Latch w) (a b : Nat) : (l.hwSet a).hwSet b = (l.hwSet b).hwSet a := by
  simp only [Latch.hwSet, BitVec.or_assoc, BitVec.or_comm (BitVec.twoPow w a)]

/-- 41_interrupt_latch.md R135: the named bits whose condition no longer holds are cleared. -/
@[simp] theorem Latch.clear_raw_getLsbD {w : Nat} (l : Latch w) (m t : BitVec w) (i : Nat) :
    (l.clear m t).raw.getLsbD i = (l.raw.getLsbD i && !(m.getLsbD i && !t.getLsbD i)) := by
  by_cases hi : i < w
  · simp [Latch.clear, hi]
  · simp [BitVec.getLsbD_of_ge _ _ (Nat.le_of_not_lt hi)]

/-- 41_interrupt_latch.md R132: a group is active when some bit is both raised and enabled. -/
theorem Latch.active_iff {w : Nat} (l : Latch w) :
    l.active = true ↔ ∃ i : Fin w, l.raw.getLsbD i.val = true ∧ l.enable.getLsbD i.val = true := by
  constructor
  · intro h
    by_contra hn
    apply absurd h
    have : l.status = 0 := by
      apply BitVec.eq_of_getLsbD_eq
      intro i hi
      simp only [Latch.status, BitVec.getLsbD_and, BitVec.ofNat_eq_ofNat, BitVec.getLsbD_zero]
      by_contra hb
      have hb' := Bool.eq_true_of_not_eq_false hb
      rw [Bool.and_eq_true] at hb'
      exact hn ⟨⟨i, hi⟩, hb'.1, hb'.2⟩
    simp [Latch.active, this]
  · rintro ⟨i, h1, h2⟩
    simp only [Latch.active, bne_iff_ne, ne_eq]
    intro h
    have : l.status.getLsbD i.val = true := by simp [Latch.status, h1, h2]
    simp [h] at this

@[simp] theorem Gpio.latch_setLatch (g : Gpio) (c c' : Ctx) (l : Latch 49) :
    (g.setLatch c l).latch c' = if c' = c then l else g.latch c' := by
  cases c <;> cases c' <;> rfl

@[simp] theorem Gpio.setLatch_level (g : Gpio) (c : Ctx) (l : Latch 49) : (g.setLatch c l).level = g.level := by
  cases c <;> rfl
@[simp] theorem Gpio.setLatch_trig (g : Gpio) (c : Ctx) (l : Latch 49) : (g.setLatch c l).trig = g.trig := by
  cases c <;> rfl
@[simp] theorem Gpio.setLatch_outsel (g : Gpio) (c : Ctx) (l : Latch 49) : (g.setLatch c l).outsel = g.outsel := by
  cases c <;> rfl
@[simp] theorem Gpio.setLatch_insel (g : Gpio) (c : Ctx) (l : Latch 49) : (g.setLatch c l).insel = g.insel := by
  cases c <;> rfl

@[simp] theorem Gpio.setLatch_setLatch (g : Gpio) (c : Ctx) (l l' : Latch 49) :
    (g.setLatch c l).setLatch c l' = g.setLatch c l' := by cases c <;> rfl

/-- 41_interrupt_latch.md R140, pin by pin. -/
@[simp] theorem Gpio.stillTrueMask_getLsbD (g : Gpio) (p : PinIx) :
    g.stillTrueMask.getLsbD p.val = g.stillTrue p := by
  simp [Gpio.stillTrueMask]

/-- R140 reads the trigger types and the levels only. -/
theorem Gpio.stillTrueMask_congr {g g' : Gpio} (ht : g'.trig = g.trig) (hl : g'.level = g.level) :
    g'.stillTrueMask = g.stillTrueMask := by
  apply pins_ext
  intro p
  rw [Gpio.stillTrueMask_getLsbD, Gpio.stillTrueMask_getLsbD, Gpio.stillTrue, Gpio.stillTrue, ht, hl]

/-- 42_gpio_trigger.md R160: the types 0, 6 and 7 never fire. -/
theorem fires_off (type : BitVec 3) (l0 l1 : Bool) (h : type = 0 ∨ type = 6 ∨ type = 7) : fires type l0 l1 = false := by
  rcases h with rfl | rfl | rfl <;> rfl

end Sys2Proof.Machine
end

