-- ==== Sys2Proof/Laws/State.lean ====
section
/-! SUPPORT. One lemma per field per update of the state, each true by `rfl`, so that no later proof unfolds a record update.
Every update that writes one field leaves the others. -/

namespace Sys2Proof.Machine

@[simp] theorem State.withNow_now (s : State) (t : Nat) : (s.withNow t).now = t := rfl
@[simp] theorem State.withNow_sched (s : State) (t : Nat) : (s.withNow t).sched = s.sched := rfl
@[simp] theorem State.withNow_gpio (s : State) (t : Nat) : (s.withNow t).gpio = s.gpio := rfl
@[simp] theorem State.withNow_duty (s : State) (t : Nat) : (s.withNow t).duty = s.duty := rfl
@[simp] theorem State.withNow_mcmp (s : State) (t : Nat) : (s.withNow t).mcmp = s.mcmp := rfl
@[simp] theorem State.withNow_strm (s : State) (t : Nat) : (s.withNow t).strm = s.strm := rfl
@[simp] theorem State.withNow_trace (s : State) (t : Nat) : (s.withNow t).trace = s.trace := rfl
@[simp] theorem State.withNow_params (s : State) (t : Nat) : (s.withNow t).params = s.params := rfl
@[simp] theorem State.withNow_busData (s : State) (t : Nat) : (s.withNow t).busData = s.busData := rfl
@[simp] theorem State.withNow_inbox (s : State) (t : Nat) : (s.withNow t).inbox = s.inbox := rfl

@[simp] theorem State.withSched_now (s : State) (x : Sched) : (s.withSched x).now = s.now := rfl
@[simp] theorem State.withSched_sched (s : State) (x : Sched) : (s.withSched x).sched = x := rfl
@[simp] theorem State.withSched_gpio (s : State) (x : Sched) : (s.withSched x).gpio = s.gpio := rfl
@[simp] theorem State.withSched_duty (s : State) (x : Sched) : (s.withSched x).duty = s.duty := rfl
@[simp] theorem State.withSched_mcmp (s : State) (x : Sched) : (s.withSched x).mcmp = s.mcmp := rfl
@[simp] theorem State.withSched_strm (s : State) (x : Sched) : (s.withSched x).strm = s.strm := rfl
@[simp] theorem State.withSched_trace (s : State) (x : Sched) : (s.withSched x).trace = s.trace := rfl
@[simp] theorem State.withSched_params (s : State) (x : Sched) : (s.withSched x).params = s.params := rfl
@[simp] theorem State.withSched_busData (s : State) (x : Sched) : (s.withSched x).busData = s.busData := rfl
@[simp] theorem State.withSched_inbox (s : State) (x : Sched) : (s.withSched x).inbox = s.inbox := rfl

@[simp] theorem State.withGpio_now (s : State) (x : Gpio) : (s.withGpio x).now = s.now := rfl
@[simp] theorem State.withGpio_sched (s : State) (x : Gpio) : (s.withGpio x).sched = s.sched := rfl
@[simp] theorem State.withGpio_gpio (s : State) (x : Gpio) : (s.withGpio x).gpio = x := rfl
@[simp] theorem State.withGpio_duty (s : State) (x : Gpio) : (s.withGpio x).duty = s.duty := rfl
@[simp] theorem State.withGpio_mcmp (s : State) (x : Gpio) : (s.withGpio x).mcmp = s.mcmp := rfl
@[simp] theorem State.withGpio_strm (s : State) (x : Gpio) : (s.withGpio x).strm = s.strm := rfl
@[simp] theorem State.withGpio_trace (s : State) (x : Gpio) : (s.withGpio x).trace = s.trace := rfl
@[simp] theorem State.withGpio_params (s : State) (x : Gpio) : (s.withGpio x).params = s.params := rfl
@[simp] theorem State.withGpio_busData (s : State) (x : Gpio) : (s.withGpio x).busData = s.busData := rfl
@[simp] theorem State.withGpio_inbox (s : State) (x : Gpio) : (s.withGpio x).inbox = s.inbox := rfl

@[simp] theorem State.withDuty_now (s : State) (x : Duty) : (s.withDuty x).now = s.now := rfl
@[simp] theorem State.withDuty_sched (s : State) (x : Duty) : (s.withDuty x).sched = s.sched := rfl
@[simp] theorem State.withDuty_gpio (s : State) (x : Duty) : (s.withDuty x).gpio = s.gpio := rfl
@[simp] theorem State.withDuty_duty (s : State) (x : Duty) : (s.withDuty x).duty = x := rfl
@[simp] theorem State.withDuty_mcmp (s : State) (x : Duty) : (s.withDuty x).mcmp = s.mcmp := rfl
@[simp] theorem State.withDuty_strm (s : State) (x : Duty) : (s.withDuty x).strm = s.strm := rfl
@[simp] theorem State.withDuty_trace (s : State) (x : Duty) : (s.withDuty x).trace = s.trace := rfl
@[simp] theorem State.withDuty_params (s : State) (x : Duty) : (s.withDuty x).params = s.params := rfl
@[simp] theorem State.withDuty_busData (s : State) (x : Duty) : (s.withDuty x).busData = s.busData := rfl
@[simp] theorem State.withDuty_inbox (s : State) (x : Duty) : (s.withDuty x).inbox = s.inbox := rfl

@[simp] theorem State.withMcmp_now (s : State) (x : Mcmp) : (s.withMcmp x).now = s.now := rfl
@[simp] theorem State.withMcmp_sched (s : State) (x : Mcmp) : (s.withMcmp x).sched = s.sched := rfl
@[simp] theorem State.withMcmp_gpio (s : State) (x : Mcmp) : (s.withMcmp x).gpio = s.gpio := rfl
@[simp] theorem State.withMcmp_duty (s : State) (x : Mcmp) : (s.withMcmp x).duty = s.duty := rfl
@[simp] theorem State.withMcmp_mcmp (s : State) (x : Mcmp) : (s.withMcmp x).mcmp = x := rfl
@[simp] theorem State.withMcmp_strm (s : State) (x : Mcmp) : (s.withMcmp x).strm = s.strm := rfl
@[simp] theorem State.withMcmp_trace (s : State) (x : Mcmp) : (s.withMcmp x).trace = s.trace := rfl
@[simp] theorem State.withMcmp_params (s : State) (x : Mcmp) : (s.withMcmp x).params = s.params := rfl
@[simp] theorem State.withMcmp_busData (s : State) (x : Mcmp) : (s.withMcmp x).busData = s.busData := rfl
@[simp] theorem State.withMcmp_inbox (s : State) (x : Mcmp) : (s.withMcmp x).inbox = s.inbox := rfl

@[simp] theorem State.withStrm_now (s : State) (x : Strm) : (s.withStrm x).now = s.now := rfl
@[simp] theorem State.withStrm_sched (s : State) (x : Strm) : (s.withStrm x).sched = s.sched := rfl
@[simp] theorem State.withStrm_gpio (s : State) (x : Strm) : (s.withStrm x).gpio = s.gpio := rfl
@[simp] theorem State.withStrm_duty (s : State) (x : Strm) : (s.withStrm x).duty = s.duty := rfl
@[simp] theorem State.withStrm_mcmp (s : State) (x : Strm) : (s.withStrm x).mcmp = s.mcmp := rfl
@[simp] theorem State.withStrm_strm (s : State) (x : Strm) : (s.withStrm x).strm = x := rfl
@[simp] theorem State.withStrm_trace (s : State) (x : Strm) : (s.withStrm x).trace = s.trace := rfl
@[simp] theorem State.withStrm_params (s : State) (x : Strm) : (s.withStrm x).params = s.params := rfl
@[simp] theorem State.withStrm_busData (s : State) (x : Strm) : (s.withStrm x).busData = s.busData := rfl
@[simp] theorem State.withStrm_inbox (s : State) (x : Strm) : (s.withStrm x).inbox = s.inbox := rfl

@[simp] theorem State.withTrace_now (s : State) (x : List Event) : (s.withTrace x).now = s.now := rfl
@[simp] theorem State.withTrace_sched (s : State) (x : List Event) : (s.withTrace x).sched = s.sched := rfl
@[simp] theorem State.withTrace_gpio (s : State) (x : List Event) : (s.withTrace x).gpio = s.gpio := rfl
@[simp] theorem State.withTrace_duty (s : State) (x : List Event) : (s.withTrace x).duty = s.duty := rfl
@[simp] theorem State.withTrace_mcmp (s : State) (x : List Event) : (s.withTrace x).mcmp = s.mcmp := rfl
@[simp] theorem State.withTrace_strm (s : State) (x : List Event) : (s.withTrace x).strm = s.strm := rfl
@[simp] theorem State.withTrace_trace (s : State) (x : List Event) : (s.withTrace x).trace = x := rfl
@[simp] theorem State.withTrace_params (s : State) (x : List Event) : (s.withTrace x).params = s.params := rfl
@[simp] theorem State.withTrace_busData (s : State) (x : List Event) : (s.withTrace x).busData = s.busData := rfl
@[simp] theorem State.withTrace_inbox (s : State) (x : List Event) : (s.withTrace x).inbox = s.inbox := rfl

@[simp] theorem State.withBusData_now (s : State) (x : Option Word) : (s.withBusData x).now = s.now := rfl
@[simp] theorem State.withBusData_sched (s : State) (x : Option Word) : (s.withBusData x).sched = s.sched := rfl
@[simp] theorem State.withBusData_gpio (s : State) (x : Option Word) : (s.withBusData x).gpio = s.gpio := rfl
@[simp] theorem State.withBusData_duty (s : State) (x : Option Word) : (s.withBusData x).duty = s.duty := rfl
@[simp] theorem State.withBusData_mcmp (s : State) (x : Option Word) : (s.withBusData x).mcmp = s.mcmp := rfl
@[simp] theorem State.withBusData_strm (s : State) (x : Option Word) : (s.withBusData x).strm = s.strm := rfl
@[simp] theorem State.withBusData_trace (s : State) (x : Option Word) : (s.withBusData x).trace = s.trace := rfl
@[simp] theorem State.withBusData_params (s : State) (x : Option Word) : (s.withBusData x).params = s.params := rfl
@[simp] theorem State.withBusData_busData (s : State) (x : Option Word) : (s.withBusData x).busData = x := rfl
@[simp] theorem State.withBusData_inbox (s : State) (x : Option Word) : (s.withBusData x).inbox = s.inbox := rfl

@[simp] theorem State.withInbox_now (s : State) (x : List Request) : (s.withInbox x).now = s.now := rfl
@[simp] theorem State.withInbox_sched (s : State) (x : List Request) : (s.withInbox x).sched = s.sched := rfl
@[simp] theorem State.withInbox_gpio (s : State) (x : List Request) : (s.withInbox x).gpio = s.gpio := rfl
@[simp] theorem State.withInbox_duty (s : State) (x : List Request) : (s.withInbox x).duty = s.duty := rfl
@[simp] theorem State.withInbox_mcmp (s : State) (x : List Request) : (s.withInbox x).mcmp = s.mcmp := rfl
@[simp] theorem State.withInbox_strm (s : State) (x : List Request) : (s.withInbox x).strm = s.strm := rfl
@[simp] theorem State.withInbox_trace (s : State) (x : List Request) : (s.withInbox x).trace = s.trace := rfl
@[simp] theorem State.withInbox_params (s : State) (x : List Request) : (s.withInbox x).params = s.params := rfl
@[simp] theorem State.withInbox_busData (s : State) (x : List Request) : (s.withInbox x).busData = s.busData := rfl
@[simp] theorem State.withInbox_inbox (s : State) (x : List Request) : (s.withInbox x).inbox = x := rfl

@[simp] theorem State.respond_now (s : State) (w : Word) : (s.respond w).now = s.now := rfl
@[simp] theorem State.respond_sched (s : State) (w : Word) : (s.respond w).sched = s.sched := rfl
@[simp] theorem State.respond_gpio (s : State) (w : Word) : (s.respond w).gpio = s.gpio := rfl
@[simp] theorem State.respond_duty (s : State) (w : Word) : (s.respond w).duty = s.duty := rfl
@[simp] theorem State.respond_mcmp (s : State) (w : Word) : (s.respond w).mcmp = s.mcmp := rfl
@[simp] theorem State.respond_strm (s : State) (w : Word) : (s.respond w).strm = s.strm := rfl
@[simp] theorem State.respond_trace (s : State) (w : Word) : (s.respond w).trace = s.trace := rfl
@[simp] theorem State.respond_params (s : State) (w : Word) : (s.respond w).params = s.params := rfl
@[simp] theorem State.respond_busData (s : State) (w : Word) : (s.respond w).busData = some w := rfl
@[simp] theorem State.respond_inbox (s : State) (w : Word) : (s.respond w).inbox = s.inbox := rfl

@[simp] theorem State.arm_now (s : State) (tok : Token) (d : Nat) : (s.arm tok d).now = s.now := rfl
@[simp] theorem State.arm_sched (s : State) (tok : Token) (d : Nat) :
    (s.arm tok d).sched = s.sched.set tok (some (s.now + d)) := rfl
@[simp] theorem State.arm_gpio (s : State) (tok : Token) (d : Nat) : (s.arm tok d).gpio = s.gpio := rfl
@[simp] theorem State.arm_duty (s : State) (tok : Token) (d : Nat) : (s.arm tok d).duty = s.duty := rfl
@[simp] theorem State.arm_mcmp (s : State) (tok : Token) (d : Nat) : (s.arm tok d).mcmp = s.mcmp := rfl
@[simp] theorem State.arm_strm (s : State) (tok : Token) (d : Nat) : (s.arm tok d).strm = s.strm := rfl
@[simp] theorem State.arm_trace (s : State) (tok : Token) (d : Nat) : (s.arm tok d).trace = s.trace := rfl
@[simp] theorem State.arm_params (s : State) (tok : Token) (d : Nat) : (s.arm tok d).params = s.params := rfl
@[simp] theorem State.arm_busData (s : State) (tok : Token) (d : Nat) : (s.arm tok d).busData = s.busData := rfl
@[simp] theorem State.arm_inbox (s : State) (tok : Token) (d : Nat) : (s.arm tok d).inbox = s.inbox := rfl

@[simp] theorem State.cancel_now (s : State) (tok : Token) : (s.cancel tok).now = s.now := rfl
@[simp] theorem State.cancel_sched (s : State) (tok : Token) : (s.cancel tok).sched = s.sched.set tok none := rfl
@[simp] theorem State.cancel_gpio (s : State) (tok : Token) : (s.cancel tok).gpio = s.gpio := rfl
@[simp] theorem State.cancel_duty (s : State) (tok : Token) : (s.cancel tok).duty = s.duty := rfl
@[simp] theorem State.cancel_mcmp (s : State) (tok : Token) : (s.cancel tok).mcmp = s.mcmp := rfl
@[simp] theorem State.cancel_strm (s : State) (tok : Token) : (s.cancel tok).strm = s.strm := rfl
@[simp] theorem State.cancel_trace (s : State) (tok : Token) : (s.cancel tok).trace = s.trace := rfl
@[simp] theorem State.cancel_params (s : State) (tok : Token) : (s.cancel tok).params = s.params := rfl
@[simp] theorem State.cancel_busData (s : State) (tok : Token) : (s.cancel tok).busData = s.busData := rfl
@[simp] theorem State.cancel_inbox (s : State) (tok : Token) : (s.cancel tok).inbox = s.inbox := rfl

@[simp] theorem State.emit_now (s : State) (es : List Event) : (s.emit es).now = s.now := rfl
@[simp] theorem State.emit_sched (s : State) (es : List Event) : (s.emit es).sched = s.sched := rfl
@[simp] theorem State.emit_gpio (s : State) (es : List Event) : (s.emit es).gpio = s.gpio := rfl
@[simp] theorem State.emit_duty (s : State) (es : List Event) : (s.emit es).duty = s.duty := rfl
@[simp] theorem State.emit_mcmp (s : State) (es : List Event) : (s.emit es).mcmp = s.mcmp := rfl
@[simp] theorem State.emit_strm (s : State) (es : List Event) : (s.emit es).strm = s.strm := rfl
@[simp] theorem State.emit_trace (s : State) (es : List Event) : (s.emit es).trace = s.trace ++ es := rfl
@[simp] theorem State.emit_params (s : State) (es : List Event) : (s.emit es).params = s.params := rfl
@[simp] theorem State.emit_busData (s : State) (es : List Event) : (s.emit es).busData = s.busData := rfl
@[simp] theorem State.emit_inbox (s : State) (es : List Event) : (s.emit es).inbox = s.inbox := rfl

@[simp] theorem State.announce_now (s : State) (sig : Nat) (l : Bool) (q : Option Word) :
    (s.announce sig l q).now = s.now := rfl
@[simp] theorem State.announce_sched (s : State) (sig : Nat) (l : Bool) (q : Option Word) :
    (s.announce sig l q).sched = s.sched := rfl
@[simp] theorem State.announce_gpio (s : State) (sig : Nat) (l : Bool) (q : Option Word) :
    (s.announce sig l q).gpio = s.gpio := rfl
@[simp] theorem State.announce_duty (s : State) (sig : Nat) (l : Bool) (q : Option Word) :
    (s.announce sig l q).duty = s.duty := rfl
@[simp] theorem State.announce_mcmp (s : State) (sig : Nat) (l : Bool) (q : Option Word) :
    (s.announce sig l q).mcmp = s.mcmp := rfl
@[simp] theorem State.announce_strm (s : State) (sig : Nat) (l : Bool) (q : Option Word) :
    (s.announce sig l q).strm = s.strm := rfl
@[simp] theorem State.announce_trace (s : State) (sig : Nat) (l : Bool) (q : Option Word) :
    (s.announce sig l q).trace = s.trace ++ (s.gpio.boundPins sig).map (fun p => .pinOut p l q) := rfl
@[simp] theorem State.announce_params (s : State) (sig : Nat) (l : Bool) (q : Option Word) :
    (s.announce sig l q).params = s.params := rfl
@[simp] theorem State.announce_busData (s : State) (sig : Nat) (l : Bool) (q : Option Word) :
    (s.announce sig l q).busData = s.busData := rfl
@[simp] theorem State.announce_inbox (s : State) (sig : Nat) (l : Bool) (q : Option Word) :
    (s.announce sig l q).inbox = s.inbox := rfl

@[simp] theorem State.setDutyCh_now (s : State) (n : DutyIx) (c : DutyCh) : (s.setDutyCh n c).now = s.now := rfl
@[simp] theorem State.setDutyCh_sched (s : State) (n : DutyIx) (c : DutyCh) : (s.setDutyCh n c).sched = s.sched := rfl
@[simp] theorem State.setDutyCh_gpio (s : State) (n : DutyIx) (c : DutyCh) : (s.setDutyCh n c).gpio = s.gpio := rfl
@[simp] theorem State.setDutyCh_duty (s : State) (n : DutyIx) (c : DutyCh) :
    (s.setDutyCh n c).duty = { s.duty with ch := Vector.set s.duty.ch n.val c } := rfl
@[simp] theorem State.setDutyCh_mcmp (s : State) (n : DutyIx) (c : DutyCh) : (s.setDutyCh n c).mcmp = s.mcmp := rfl
@[simp] theorem State.setDutyCh_strm (s : State) (n : DutyIx) (c : DutyCh) : (s.setDutyCh n c).strm = s.strm := rfl
@[simp] theorem State.setDutyCh_trace (s : State) (n : DutyIx) (c : DutyCh) : (s.setDutyCh n c).trace = s.trace := rfl
@[simp] theorem State.setDutyCh_params (s : State) (n : DutyIx) (c : DutyCh) : (s.setDutyCh n c).params = s.params := rfl
@[simp] theorem State.setDutyCh_busData (s : State) (n : DutyIx) (c : DutyCh) :
    (s.setDutyCh n c).busData = s.busData := rfl
@[simp] theorem State.setDutyCh_inbox (s : State) (n : DutyIx) (c : DutyCh) : (s.setDutyCh n c).inbox = s.inbox := rfl

@[simp] theorem State.setMcmpOut_now (s : State) (o : OpIx) (k : OutIx) (c : OutCh) :
    (s.setMcmpOut o k c).now = s.now := rfl
@[simp] theorem State.setMcmpOut_sched (s : State) (o : OpIx) (k : OutIx) (c : OutCh) :
    (s.setMcmpOut o k c).sched = s.sched := rfl
@[simp] theorem State.setMcmpOut_gpio (s : State) (o : OpIx) (k : OutIx) (c : OutCh) :
    (s.setMcmpOut o k c).gpio = s.gpio := rfl
@[simp] theorem State.setMcmpOut_duty (s : State) (o : OpIx) (k : OutIx) (c : OutCh) :
    (s.setMcmpOut o k c).duty = s.duty := rfl
@[simp] theorem State.setMcmpOut_mcmp (s : State) (o : OpIx) (k : OutIx) (c : OutCh) :
    (s.setMcmpOut o k c).mcmp = { s.mcmp with out := Vector.set s.mcmp.out o.val (Vector.set (s.mcmp.out.get o) k.val c) } := rfl
@[simp] theorem State.setMcmpOut_strm (s : State) (o : OpIx) (k : OutIx) (c : OutCh) :
    (s.setMcmpOut o k c).strm = s.strm := rfl
@[simp] theorem State.setMcmpOut_trace (s : State) (o : OpIx) (k : OutIx) (c : OutCh) :
    (s.setMcmpOut o k c).trace = s.trace := rfl
@[simp] theorem State.setMcmpOut_params (s : State) (o : OpIx) (k : OutIx) (c : OutCh) :
    (s.setMcmpOut o k c).params = s.params := rfl
@[simp] theorem State.setMcmpOut_busData (s : State) (o : OpIx) (k : OutIx) (c : OutCh) :
    (s.setMcmpOut o k c).busData = s.busData := rfl
@[simp] theorem State.setMcmpOut_inbox (s : State) (o : OpIx) (k : OutIx) (c : OutCh) :
    (s.setMcmpOut o k c).inbox = s.inbox := rfl

@[simp] theorem State.setMcmpOp_now (s : State) (o : OpIx) (c : Oper) : (s.setMcmpOp o c).now = s.now := rfl
@[simp] theorem State.setMcmpOp_sched (s : State) (o : OpIx) (c : Oper) : (s.setMcmpOp o c).sched = s.sched := rfl
@[simp] theorem State.setMcmpOp_gpio (s : State) (o : OpIx) (c : Oper) : (s.setMcmpOp o c).gpio = s.gpio := rfl
@[simp] theorem State.setMcmpOp_duty (s : State) (o : OpIx) (c : Oper) : (s.setMcmpOp o c).duty = s.duty := rfl
@[simp] theorem State.setMcmpOp_mcmp (s : State) (o : OpIx) (c : Oper) :
    (s.setMcmpOp o c).mcmp = { s.mcmp with op := Vector.set s.mcmp.op o.val c } := rfl
@[simp] theorem State.setMcmpOp_strm (s : State) (o : OpIx) (c : Oper) : (s.setMcmpOp o c).strm = s.strm := rfl
@[simp] theorem State.setMcmpOp_trace (s : State) (o : OpIx) (c : Oper) : (s.setMcmpOp o c).trace = s.trace := rfl
@[simp] theorem State.setMcmpOp_params (s : State) (o : OpIx) (c : Oper) : (s.setMcmpOp o c).params = s.params := rfl
@[simp] theorem State.setMcmpOp_busData (s : State) (o : OpIx) (c : Oper) : (s.setMcmpOp o c).busData = s.busData := rfl
@[simp] theorem State.setMcmpOp_inbox (s : State) (o : OpIx) (c : Oper) : (s.setMcmpOp o c).inbox = s.inbox := rfl

@[simp] theorem State.setStrmCh_now (s : State) (n : StrmIx) (c : StrmCh) : (s.setStrmCh n c).now = s.now := rfl
@[simp] theorem State.setStrmCh_sched (s : State) (n : StrmIx) (c : StrmCh) : (s.setStrmCh n c).sched = s.sched := rfl
@[simp] theorem State.setStrmCh_gpio (s : State) (n : StrmIx) (c : StrmCh) : (s.setStrmCh n c).gpio = s.gpio := rfl
@[simp] theorem State.setStrmCh_duty (s : State) (n : StrmIx) (c : StrmCh) : (s.setStrmCh n c).duty = s.duty := rfl
@[simp] theorem State.setStrmCh_mcmp (s : State) (n : StrmIx) (c : StrmCh) : (s.setStrmCh n c).mcmp = s.mcmp := rfl
@[simp] theorem State.setStrmCh_strm (s : State) (n : StrmIx) (c : StrmCh) :
    (s.setStrmCh n c).strm = { s.strm with ch := Vector.set s.strm.ch n.val c } := rfl
@[simp] theorem State.setStrmCh_trace (s : State) (n : StrmIx) (c : StrmCh) : (s.setStrmCh n c).trace = s.trace := rfl
@[simp] theorem State.setStrmCh_params (s : State) (n : StrmIx) (c : StrmCh) : (s.setStrmCh n c).params = s.params := rfl
@[simp] theorem State.setStrmCh_busData (s : State) (n : StrmIx) (c : StrmCh) :
    (s.setStrmCh n c).busData = s.busData := rfl
@[simp] theorem State.setStrmCh_inbox (s : State) (n : StrmIx) (c : StrmCh) : (s.setStrmCh n c).inbox = s.inbox := rfl

@[simp] theorem State.strmHwSet_now (s : State) (b : Nat) : (s.strmHwSet b).now = s.now := rfl
@[simp] theorem State.strmHwSet_sched (s : State) (b : Nat) : (s.strmHwSet b).sched = s.sched := rfl
@[simp] theorem State.strmHwSet_gpio (s : State) (b : Nat) : (s.strmHwSet b).gpio = s.gpio := rfl
@[simp] theorem State.strmHwSet_duty (s : State) (b : Nat) : (s.strmHwSet b).duty = s.duty := rfl
@[simp] theorem State.strmHwSet_mcmp (s : State) (b : Nat) : (s.strmHwSet b).mcmp = s.mcmp := rfl
@[simp] theorem State.strmHwSet_strm (s : State) (b : Nat) :
    (s.strmHwSet b).strm = { s.strm with latch := s.strm.latch.hwSet b } := rfl
@[simp] theorem State.strmHwSet_trace (s : State) (b : Nat) : (s.strmHwSet b).trace = s.trace := rfl
@[simp] theorem State.strmHwSet_params (s : State) (b : Nat) : (s.strmHwSet b).params = s.params := rfl
@[simp] theorem State.strmHwSet_busData (s : State) (b : Nat) : (s.strmHwSet b).busData = s.busData := rfl
@[simp] theorem State.strmHwSet_inbox (s : State) (b : Nat) : (s.strmHwSet b).inbox = s.inbox := rfl

@[simp] theorem State.systemReset_now (s : State) : (s.systemReset).now = s.now := rfl
@[simp] theorem State.systemReset_sched (s : State) : (s.systemReset).sched = Sched.empty := rfl
@[simp] theorem State.systemReset_gpio (s : State) : (s.systemReset).gpio = Gpio.atReset := rfl
@[simp] theorem State.systemReset_duty (s : State) : (s.systemReset).duty = Duty.atReset := rfl
@[simp] theorem State.systemReset_mcmp (s : State) : (s.systemReset).mcmp = Mcmp.atReset := rfl
@[simp] theorem State.systemReset_strm (s : State) : (s.systemReset).strm = Strm.atReset := rfl
@[simp] theorem State.systemReset_trace (s : State) : (s.systemReset).trace = s.trace := rfl
@[simp] theorem State.systemReset_params (s : State) : (s.systemReset).params = s.params := rfl
@[simp] theorem State.systemReset_busData (s : State) : (s.systemReset).busData = s.busData := rfl
@[simp] theorem State.systemReset_inbox (s : State) : (s.systemReset).inbox = s.inbox := rfl

/-- Two states are equal when their fields are. -/
theorem State.eq_of_fields (s t : State) (h1 : s.now = t.now) (h2 : s.sched = t.sched) (h3 : s.gpio = t.gpio)
    (h4 : s.duty = t.duty) (h5 : s.mcmp = t.mcmp) (h6 : s.strm = t.strm) (h7 : s.trace = t.trace)
    (h8 : s.params = t.params) (h9 : s.busData = t.busData) (h10 : s.inbox = t.inbox) : s = t := by
  cases s; cases t; simp_all

end Sys2Proof.Machine
end

