-- ==== Sys2Proof/Laws/Gpio.lean ====
section
/-! SUPPORT. What `SetLevel`, the level word writes and `Announce` do. -/

namespace Sys2Proof.Machine

/-- 42_gpio_trigger.md R165: everything `SetLevel` does, pin by pin. -/
theorem Gpio.setLevel_spec (g : Gpio) (p : PinIx) (v : Bool) :
    (g.setLevel p v).trig = g.trig ∧ (g.setLevel p v).outsel = g.outsel ∧ (g.setLevel p v).insel = g.insel ∧
    (∀ j : PinIx, (g.setLevel p v).level.getLsbD j.val = if j = p then v else g.level.getLsbD j.val) ∧
    ∀ c : Ctx, ((g.setLevel p v).latch c).enable = (g.latch c).enable ∧
      ∀ j : PinIx, ((g.setLevel p v).latch c).raw.getLsbD j.val = ((g.latch c).raw.getLsbD j.val ||
        (decide (j = p) && g.level.getLsbD p.val != v && fires (g.trig.get p) (g.level.getLsbD p.val) v)) := by
  unfold Gpio.setLevel
  split
  · rename_i h
    refine ⟨rfl, rfl, rfl, fun j => ?_, fun c => ⟨rfl, fun j => ?_⟩⟩
    · split
      · rename_i hj; rw [hj, h]
      · rfl
    · simp only [h, bne_self_eq_false, Bool.and_false, Bool.false_and, Bool.or_false]
  · rename_i h
    split
    · rename_i hf
      refine ⟨rfl, rfl, rfl, fun j => setPin_getLsbD _ _ _ _, fun c => ⟨by cases c <;> rfl, fun j => ?_⟩⟩
      have hj := j.isLt
      have e : (decide (j.val < 49) && decide (j.val = p.val)) = decide (j = p) := by simp [hj, Fin.ext_iff]
      have hne : (g.level.getLsbD p.val != v) = true := by simpa using h
      cases c <;> simp only [Gpio.latch, Gpio.latchPin, Latch.hwSet_raw_getLsbD, e, hf, hne, Bool.and_true]
    · rename_i hf
      have hf' := Bool.eq_false_of_not_eq_true hf
      refine ⟨rfl, rfl, rfl, fun j => setPin_getLsbD _ _ _ _, fun c => ⟨by cases c <;> rfl, fun j => ?_⟩⟩
      rw [hf', Bool.and_false, Bool.or_false]
      cases c <;> rfl

/-- 42_gpio_trigger.md R167, R168: everything `SetLevel` over a list of distinct pins does, pin by pin. -/
theorem Gpio.setLevels_spec (ps : List PinIx) (hn : ps.Nodup) (g : Gpio) (x : BitVec 49) :
    (g.setLevels ps x).trig = g.trig ∧ (g.setLevels ps x).outsel = g.outsel ∧ (g.setLevels ps x).insel = g.insel ∧
    (∀ j : PinIx, (g.setLevels ps x).level.getLsbD j.val =
      if j ∈ ps then x.getLsbD j.val else g.level.getLsbD j.val) ∧
    ∀ c : Ctx, ((g.setLevels ps x).latch c).enable = (g.latch c).enable ∧
      ∀ j : PinIx, ((g.setLevels ps x).latch c).raw.getLsbD j.val = ((g.latch c).raw.getLsbD j.val ||
        (decide (j ∈ ps) && g.level.getLsbD j.val != x.getLsbD j.val &&
          fires (g.trig.get j) (g.level.getLsbD j.val) (x.getLsbD j.val))) := by
  induction ps generalizing g with
  | nil => exact ⟨rfl, rfl, rfl, fun j => by simp [Gpio.setLevels], fun c => ⟨rfl, fun j => by simp [Gpio.setLevels]⟩⟩
  | cons p ps ih =>
    obtain ⟨hp, hn'⟩ := List.nodup_cons.mp hn
    obtain ⟨t1, o1, i1, l1, c1⟩ := g.setLevel_spec p (x.getLsbD p.val)
    obtain ⟨t2, o2, i2, l2, c2⟩ := ih hn' (g.setLevel p (x.getLsbD p.val))
    have e : g.setLevels (p :: ps) x = (g.setLevel p (x.getLsbD p.val)).setLevels ps x := rfl
    rw [e]
    refine ⟨t2.trans t1, o2.trans o1, i2.trans i1, fun j => ?_, fun c => ⟨(c2 c).1.trans (c1 c).1, fun j => ?_⟩⟩
    · rw [l2 j, l1 j]
      by_cases h1 : j ∈ ps
      · simp [h1]
      · by_cases h2 : j = p <;> simp [h1, h2]
    · rw [(c2 c).2 j, (c1 c).2 j, l1 j, t1]
      by_cases h2 : j = p
      · subst h2
        simp [hp]
      · simp [h2]

theorem loPins_nodup : loPins.Nodup := (List.nodup_finRange 49).filter _
theorem hiPins_nodup : hiPins.Nodup := (List.nodup_finRange 49).filter _
@[simp] theorem mem_loPins (p : PinIx) : p ∈ loPins ↔ p.val < 32 := by simp [loPins]
@[simp] theorem mem_hiPins (p : PinIx) : p ∈ hiPins ↔ 32 ≤ p.val := by simp [hiPins]

/-- 43_gpio_crossbar.md R190: the pins a signal reaches. -/
@[simp] theorem Gpio.mem_boundPins (g : Gpio) (sig : Nat) (p : PinIx) :
    p ∈ g.boundPins sig ↔ (g.outsel.get p).force = false ∧ (g.outsel.get p).sel.toNat = sig := by
  simp [Gpio.boundPins]

/-- R190: the scan is in ascending pin order. -/
theorem Gpio.boundPins_sorted (g : Gpio) (sig : Nat) : (g.boundPins sig).Pairwise (· < ·) :=
  (List.pairwise_lt_finRange 49).filter _

/-- R190: `Announce` reads the output-select table only. -/
theorem Gpio.boundPins_congr {g g' : Gpio} (h : g'.outsel = g.outsel) (sig : Nat) : g'.boundPins sig = g.boundPins sig := by
  simp [Gpio.boundPins, h]

end Sys2Proof.Machine
end

