-- ==== Sys2Proof/Laws/Sched.lean ====
section
/-! SUPPORT. The schedule: one slot per token (10_state.md R24), and what `ADVANCE` and `FIRE` ask of it. -/

namespace Sys2Proof.Machine

/-- Reading a slot after one slot was replaced. -/
@[simp] theorem Sched.get_set (x : Sched) (tok tok' : Token) (d : Option Nat) :
    (x.set tok d).get tok' = if tok' = tok then d else x.get tok' := by
  cases tok with
  | duty n => cases tok' <;> simp [Sched.get, Sched.set]
  | mcmp o k =>
    cases tok' with
    | mcmp o' k' =>
      simp only [Sched.get, Sched.set, vector_get_set, Token.mcmp.injEq]
      by_cases h : o' = o
      · subst h; simp
      · simp [h]
    | duty _ => simp [Sched.get, Sched.set]
    | strm _ => simp [Sched.get, Sched.set]
  | strm n => cases tok' <;> simp [Sched.get, Sched.set]

/-- Two schedules with the same slots are the same. -/
theorem Sched.ext_get {x y : Sched} (h : ∀ tok, x.get tok = y.get tok) : x = y := by
  cases x with | mk a b c => cases y with | mk a' b' c' =>
  have h1 : a = a' := vector_ext_get fun n => h (.duty n)
  have h2 : b = b' := vector_ext_get fun o => vector_ext_get fun k => h (.mcmp o k)
  have h3 : c = c' := vector_ext_get fun n => h (.strm n)
  rw [h1, h2, h3]

/-- The later of two replacements of one slot stands. -/
@[simp] theorem Sched.set_set (x : Sched) (tok : Token) (d d' : Option Nat) : (x.set tok d).set tok d' = x.set tok d' := by
  apply Sched.ext_get
  intro t
  simp only [Sched.get_set]
  split <;> rfl

/-- Replacements of different slots commute. -/
theorem Sched.set_comm (x : Sched) (a b : Token) (d d' : Option Nat) (h : a ≠ b) :
    (x.set a d).set b d' = (x.set b d').set a d := by
  apply Sched.ext_get
  intro t
  simp only [Sched.get_set]
  by_cases h1 : t = a
  · simp [h1, h]
  · simp [h1]

/-- Replacing a slot by itself changes nothing. -/
@[simp] theorem Sched.set_get (x : Sched) (tok : Token) : x.set tok (x.get tok) = x := by
  apply Sched.ext_get
  intro t
  simp only [Sched.get_set]
  split
  · simp [*]
  · rfl

@[simp] theorem Sched.get_empty (tok : Token) : Sched.empty.get tok = none := by
  cases tok <;> simp [Sched.get, Sched.empty, Vector.get_eq_getElem]

/-- Every token is listed. -/
theorem Token.mem_all (tok : Token) : tok ∈ Token.all := by
  cases tok <;> simp [Token.all]

/-- 47_virtual_clock.md R303: a token is due when its deadline is `now`. -/
theorem State.due_iff (s : State) (tok : Token) : s.due tok = true ↔ s.sched.get tok = some s.now := by
  simp [State.due]

/-- 47_virtual_clock.md R302: the enabling condition of `ADVANCE`. -/
theorem State.advanceEnabled_iff (s : State) (t : Nat) :
    s.advanceEnabled t = true ↔ s.now ≤ t ∧ ∀ tok d, s.sched.get tok = some d → t ≤ d := by
  simp only [State.advanceEnabled, Bool.and_eq_true, decide_eq_true_eq, List.all_eq_true]
  constructor
  · rintro ⟨h1, h2⟩
    refine ⟨h1, fun tok d hd => ?_⟩
    have := h2 tok (Token.mem_all tok)
    rw [hd] at this
    simpa using this
  · rintro ⟨h1, h2⟩
    refine ⟨h1, fun tok _ => ?_⟩
    cases hd : s.sched.get tok with
    | none => rfl
    | some d => simpa using h2 tok d hd

end Sys2Proof.Machine
end

