-- ==== Sys2Proof/Laws/Toggle.lean ====
section
/-! SUPPORT. What the two toggling engines share: the on and off times and the announcement of a phase. -/

namespace Sys2Proof.Machine

open Sys2Proof.Safety

/-- 44_duty_timer.md R206 with `U` and `EPS` written out. -/
theorem toggleTimes_eq (clk div maxc d period : Nat) (hp : period = div * maxc * 1000000000 / clk) :
    toggleTimes clk div maxc d = if clk = 0 ∨ div = 0 ∨ maxc = 0 then none
      else if period < 2 then none
      else some (min (max (d * period / maxc) 1) (period - 1), period - min (max (d * period / maxc) 1) (period - 1)) := by
  subst hp
  rfl

/-- 44_duty_timer.md R206, R207: everything the on and off times are, when there are any. -/
theorem toggleTimes_spec {clk div maxc d on off : Nat} (h : toggleTimes clk div maxc d = some (on, off)) :
    clk ≠ 0 ∧ div ≠ 0 ∧ maxc ≠ 0 ∧ 2 ≤ div * maxc * 1000000000 / clk ∧
    on + off = div * maxc * 1000000000 / clk ∧ 1 ≤ on ∧ 1 ≤ off ∧
    on = min (max (d * (div * maxc * 1000000000 / clk) / maxc) 1) (div * maxc * 1000000000 / clk - 1) := by
  rw [toggleTimes_eq clk div maxc d _ rfl] at h
  generalize div * maxc * 1000000000 / clk = period at h ⊢
  generalize d * period / maxc = raw at h ⊢
  split at h
  · cases h
  · rename_i h0
    rw [not_or, not_or] at h0
    split at h
    · cases h
    · simp only [Option.some.injEq, Prod.mk.injEq] at h
      refine ⟨h0.1, h0.2.1, h0.2.2, ?_⟩
      omega

/-- R206, R208: the inert configurations do not depend on the duty count. -/
theorem toggleTimes_none_iff (clk div maxc d : Nat) :
    toggleTimes clk div maxc d = none ↔ clk = 0 ∨ div = 0 ∨ maxc = 0 ∨ div * maxc * 1000000000 / clk < 2 := by
  rw [toggleTimes_eq clk div maxc d _ rfl]
  generalize div * maxc * 1000000000 / clk = period
  split
  · simp; tauto
  · split
    · simp only [true_iff]; omega
    · simp only [reduceCtorEq, false_iff]; omega

/-- 43_gpio_crossbar.md R190: what `Announce` emits. -/
theorem State.announce_eq (s : State) (sig : Nat) (level : Bool) (q : Option Word) :
    s.announce sig level q = s.withTrace (s.trace ++ forwards s sig level q) := by
  have : s.gpio.boundPins sig = (List.finRange 49).filter
      (fun p => decide ((s.gpio.outsel.get p).force = false ∧ (s.gpio.outsel.get p).sel.toNat = sig)) := by
    unfold Gpio.boundPins
    congr 1
    funext p
    cases (s.gpio.outsel.get p).force <;> simp [beq_eq_decide]
  unfold State.announce State.emit forwards
  rw [this]

/-- R190: the events depend on the output-select table only. -/
theorem forwards_congr {s t : State} (h : t.gpio.outsel = s.gpio.outsel) (sig : Nat) (level : Bool) (q : Option Word) :
    forwards t sig level q = forwards s sig level q := by simp [forwards, h]

theorem phaseEvents_congr {s t : State} (h : t.gpio.outsel = s.gpio.outsel) (sig : Nat) (a b : Bool) :
    phaseEvents t sig a b = phaseEvents s sig a b := by simp [phaseEvents, forwards_congr h]

/-- A toggle always announces. -/
theorem phaseEvents_not (s : State) (sig : Nat) (a : Bool) : phaseEvents s sig a (!a) = forwards s sig (!a) none := by
  cases a <;> rfl

end Sys2Proof.Machine
end

