-- ==== Sys2Proof/Laws/Duty.lean ====
section
/-! SUPPORT. What the procedures of the duty engine do: each is one channel replaced, one slot replaced and the events of a
change of phase. -/

namespace Sys2Proof.Machine

open Sys2Proof.Safety

@[simp] theorem State.dutyCh_setDutyCh (s : State) (n m : DutyIx) (c : DutyCh) :
    (s.setDutyCh n c).dutyCh m = if m = n then c else s.dutyCh m := vector_get_set _ _ _ _

/-- The state after channel n, its slot and the trace were written. -/
def State.dutyPut (s : State) (n : DutyIx) (c : DutyCh) (d : Option Nat) (es : List Event) : State :=
  ((s.setDutyCh n c).withSched (s.sched.set (.duty n) d)).withTrace (s.trace ++ es)

/-- 44_duty_timer.md R211. -/
theorem State.dutySetPhase_eq (s : State) (n : DutyIx) (v : Bool) :
    s.dutySetPhase n v = (s.setDutyCh n { s.dutyCh n with phase := v }).withTrace
      (s.trace ++ phaseEvents s (s.params.dutySigBase + n.val) (s.dutyCh n).phase v) := by
  unfold State.dutySetPhase
  split
  · rename_i h
    subst h
    have : s.setDutyCh n { s.dutyCh n with phase := (s.dutyCh n).phase } = s := by
      have e : ({ s.dutyCh n with phase := (s.dutyCh n).phase } : DutyCh) = s.duty.ch.get n := rfl
      unfold State.setDutyCh
      rw [e, vector_set_get]
      rfl
    rw [this]
    simp only [phaseEvents, if_pos, List.append_nil]
    rfl
  · rename_i h
    rw [State.announce_eq]
    simp only [phaseEvents, h, if_false]
    rfl

/-- Two writes of one channel. -/
theorem State.setDutyCh_setDutyCh (s : State) (n : DutyIx) (c c' : DutyCh) :
    (s.setDutyCh n c).setDutyCh n c' = s.setDutyCh n c' := by
  simp only [State.setDutyCh, State.withDuty, vector_set_set]

/-- 44_duty_timer.md R212. -/
theorem State.dutyStart_eq (s : State) (n : DutyIx) :
    s.dutyStart n = match dutyTimes s.params (s.dutyCh n) with
      | none => s.dutyPut n { s.dutyCh n with running := false, phase := false } none
          (phaseEvents s (s.params.dutySigBase + n.val) (s.dutyCh n).phase false)
      | some (on, _) => s.dutyPut n { s.dutyCh n with running := true, phase := true } (some (s.now + on))
          (phaseEvents s (s.params.dutySigBase + n.val) (s.dutyCh n).phase true) := by
  unfold State.dutyStart
  cases h : dutyTimes s.params (s.dutyCh n) with
  | none =>
    dsimp only
    rw [State.dutySetPhase_eq]
    have e : ((s.cancel (.duty n)).dutySetRunning n false).dutyCh n = { s.dutyCh n with running := false } := by
      unfold State.dutySetRunning
      rw [State.dutyCh_setDutyCh, if_pos rfl]
      rfl
    rw [e]
    unfold State.dutySetRunning
    rw [State.setDutyCh_setDutyCh]
    rfl
  | some p =>
    obtain ⟨on, off⟩ := p
    dsimp only
    rw [State.dutySetPhase_eq]
    have e : ((s.cancel (.duty n)).dutySetRunning n true).dutyCh n = { s.dutyCh n with running := true } := by
      unfold State.dutySetRunning
      rw [State.dutyCh_setDutyCh, if_pos rfl]
      rfl
    rw [e]
    unfold State.dutySetRunning
    rw [State.setDutyCh_setDutyCh]
    unfold State.arm
    simp only [State.withTrace_sched, State.setDutyCh_sched, State.cancel_sched, Sched.set_set]
    rfl

/-- 44_duty_timer.md R213. -/
theorem State.dutyStop_eq (s : State) (n : DutyIx) :
    s.dutyStop n = s.dutyPut n { s.dutyCh n with running := false, phase := false } none
      (phaseEvents s (s.params.dutySigBase + n.val) (s.dutyCh n).phase false) := by
  unfold State.dutyStop
  rw [State.dutySetPhase_eq]
  have e : ((s.cancel (.duty n)).dutySetRunning n false).dutyCh n = { s.dutyCh n with running := false } := by
    unfold State.dutySetRunning
    rw [State.dutyCh_setDutyCh, if_pos rfl]
    rfl
  rw [e]
  unfold State.dutySetRunning
  rw [State.setDutyCh_setDutyCh]
  rfl

/-- The latch group after a fade step of channel n (44_duty_timer.md R215). -/
def fadedLatch (l : Latch 8) (n : DutyIx) (c : DutyCh) : Latch 8 :=
  if fadeEnds c ∧ l.enable.getLsbD n.val = true then l.hwSet n.val else l

/-- R215: the saturating step, in naturals. -/
theorem fadedDuty_eq (c : DutyCh) : fadedDuty c = BitVec.ofNat 32
    (if c.dir then min (c.duty.toNat + c.step.toNat) (2 ^ c.res.toNat) else c.duty.toNat - c.step.toNat) := by
  unfold fadedDuty
  split
  · rfl
  · split
    · rfl
    · rename_i h
      rw [Nat.sub_eq_zero_of_le (Nat.le_of_not_lt h)]
      rfl

/-- R215: with no fade configured the fade step leaves the channel as it is. -/
theorem fadedCh_of_noFade {c : DutyCh} (h : NoFade c) : fadedCh c = c := if_pos h

theorem bv10_sub_one_eq_zero (x : BitVec 10) : x - 1 = 0 ↔ x.toNat = 1 := by
  rw [← BitVec.toNat_inj]
  simp [BitVec.toNat_sub]
  have := x.isLt
  omega

theorem bv_eq_zero_iff {w : Nat} (x : BitVec w) : x = 0 ↔ x.toNat = 0 := by
  rw [← BitVec.toNat_inj]; simp

/-- 44_duty_timer.md R215: everything `FadeStep` does. -/
theorem State.fadeStep_eq (s : State) (n : DutyIx) :
    s.fadeStep n = (s.setDutyCh n (fadedCh (s.dutyCh n))).withDuty
      { (s.setDutyCh n (fadedCh (s.dutyCh n))).duty with latch := fadedLatch s.duty.latch n (s.dutyCh n) } := by
  unfold State.fadeStep fadedCh fadedLatch fadeEnds
  simp only [bv_eq_zero_iff (s.dutyCh n).remain, bv_eq_zero_iff (s.dutyCh n).cycles]
  generalize hc : s.dutyCh n = c
  by_cases h1 : c.remain.toNat = 0 ∨ c.cycles.toNat = 0
  · rw [if_pos h1, if_pos h1, if_neg (by omega), ← hc]
    unfold State.setDutyCh State.dutyCh
    rw [vector_set_get]
    rfl
  · rw [if_neg h1, if_neg h1]
    by_cases h2 : (c.cyc + 1).toNat < c.cycles.toNat
    · rw [if_pos h2, if_pos h2, if_neg (by omega)]
      rfl
    · rw [if_neg h2, if_neg h2]
      simp only [bv10_sub_one_eq_zero, ← fadedDuty_eq]
      by_cases h3 : c.remain.toNat = 1 ∧ s.duty.latch.enable.getLsbD n.val = true
      · rw [if_pos h3, if_pos ⟨⟨by omega, by omega, h3.1⟩, h3.2⟩]
        rfl
      · rw [if_neg h3, if_neg (fun h => h3 ⟨h.1.2.2, h.2⟩)]
        rfl

/-- The channel after the toggle of 44_duty_timer.md R214 and, on entering LOW, the fade step. -/
def toggledCh (c : DutyCh) : DutyCh := if c.phase then { fadedCh c with phase := false } else { c with phase := true }

/-- The latch group after a fire of channel n (R214, R215). -/
def firedLatch (l : Latch 8) (n : DutyIx) (c : DutyCh) : Latch 8 := if c.phase then fadedLatch l n c else l

theorem fadedCh_phase (c : DutyCh) (v : Bool) : fadedCh { c with phase := v } = { fadedCh c with phase := v } := by
  unfold fadedCh
  split
  · rfl
  · split <;> rfl

theorem toggledCh_phase (c : DutyCh) : (toggledCh c).phase = !c.phase := by
  unfold toggledCh
  split
  · rename_i h; simp [h]
  · rename_i h; simp [h]

/-- 44_duty_timer.md R214: everything the callback does. -/
theorem State.dutyFire_eq (s : State) (n : DutyIx) :
    let c := toggledCh (s.dutyCh n)
    let sig := s.params.dutySigBase + n.val
    let s' := s.withDuty { s.duty with latch := firedLatch s.duty.latch n (s.dutyCh n) }
    s.dutyFire n = match dutyTimes s.params c with
      | none => s'.dutyPut n { c with running := false, phase := false } none
          (forwards s sig c.phase none ++ phaseEvents s sig c.phase false)
      | some (on, off) => s'.dutyPut n c (some (s.now + if c.phase then on else off)) (forwards s sig c.phase none) := by
  intro c sig s'
  have key : (if (s.dutyCh n).phase then ((s.cancel (.duty n)).dutySetPhase n (!(s.dutyCh n).phase)).fadeStep n
      else (s.cancel (.duty n)).dutySetPhase n (!(s.dutyCh n).phase)) = s'.dutyPut n c none (forwards s sig c.phase none) := by
    rw [State.dutySetPhase_eq]
    have hp : (s.cancel (.duty n)).dutyCh n = s.dutyCh n := rfl
    rw [hp, phaseEvents_not]
    by_cases h : (s.dutyCh n).phase = true
    · rw [if_pos h, State.fadeStep_eq]
      have hd : (((s.cancel (.duty n)).setDutyCh n { s.dutyCh n with phase := !(s.dutyCh n).phase }).withTrace
          ((s.cancel (.duty n)).trace ++ forwards (s.cancel (.duty n)) ((s.cancel (.duty n)).params.dutySigBase + n.val)
            (!(s.dutyCh n).phase) none)).dutyCh n = { s.dutyCh n with phase := false } := by
        have := State.dutyCh_setDutyCh (s.cancel (.duty n)) n n { s.dutyCh n with phase := !(s.dutyCh n).phase }
        rw [if_pos rfl] at this
        rw [h] at this ⊢
        exact this
      rw [hd, fadedCh_phase]
      have hc : c = { fadedCh (s.dutyCh n) with phase := false } := by simp only [c, toggledCh, h, if_true]
      have hl : firedLatch s.duty.latch n (s.dutyCh n) = fadedLatch s.duty.latch n (s.dutyCh n) := by
        simp only [firedLatch, h, if_true]
      have hl2 : fadedLatch s.duty.latch n { s.dutyCh n with phase := false } = fadedLatch s.duty.latch n (s.dutyCh n) := rfl
      simp only [State.dutyPut, State.setDutyCh, s', hl, hc, State.withDuty, State.withTrace, State.withSched, State.cancel,
        vector_set_set, h, Bool.not_true, hl2]
      rfl
    · have h' := Bool.eq_false_of_not_eq_true h
      rw [if_neg h]
      have hc : c = { s.dutyCh n with phase := true } := by simp only [c, toggledCh, h', Bool.false_eq_true, if_false]
      have hl : firedLatch s.duty.latch n (s.dutyCh n) = s.duty.latch := by
        simp only [firedLatch, h', Bool.false_eq_true, if_false]
      simp only [State.dutyPut, s', hl, hc, h', Bool.not_false]
      rfl
  unfold State.dutyFire
  dsimp only
  rw [key]
  generalize he : forwards s sig c.phase none = es
  have hch : (s'.dutyPut n c none es).dutyCh n = c := by
    have := State.dutyCh_setDutyCh s' n n c
    rw [if_pos rfl] at this
    exact this
  have hpar : (s'.dutyPut n c none es).params = s.params := rfl
  unfold State.dutyRearm
  rw [hch, hpar]
  cases ht : dutyTimes s.params c with
  | none =>
    dsimp only
    rw [State.dutySetPhase_eq]
    have e2 : ((s'.dutyPut n c none es).dutySetRunning n false).dutyCh n = { c with running := false } := by
      unfold State.dutySetRunning
      rw [State.dutyCh_setDutyCh, if_pos rfl, hch]
    rw [e2]
    unfold State.dutySetRunning
    rw [State.setDutyCh_setDutyCh, hch]
    simp only [State.dutyPut, State.setDutyCh, State.withDuty, State.withTrace, State.withSched, vector_set_set,
      List.append_assoc]
    rfl
  | some p =>
    obtain ⟨on, off⟩ := p
    dsimp only
    unfold State.arm
    simp only [State.dutyPut, State.withTrace_sched, State.withSched_sched, Sched.set_set]
    rfl

/-- A list of operations goes on from where its first one leads (30_encoding.md R107). -/
theorem runOps_cons_of_next {i : Instr} {is : List Instr} {s t : State} (h : exec i s = .next t) :
    runOps (i :: is) s = runOps is t := by
  simp only [runOps, h]

/-- A toggle is the passing of time to the deadline and the fire there. -/
theorem dutyToggle_of_next {n : DutyIx} {d : Nat} {s u t : State} (hd : s.sched.get (.duty n) = some d)
    (ha : exec (.advance d) s = .next u) (hf : exec (.fireDuty n) u = .next t) : dutyToggle n s = some t := by
  simp only [dutyToggle, hd, runOps, ha, hf]

/-- Toggles add up: `j + k` of them are `j`, then `k`. -/
theorem dutyToggles_add (n : DutyIx) (j k : Nat) (s : State) :
    dutyToggles n (j + k) s = (dutyToggles n j s).bind (dutyToggles n k) := by
  induction j generalizing s with
  | zero => rw [Nat.zero_add]; rfl
  | succ j ih =>
    rw [Nat.succ_add]
    show (dutyToggle n s).bind (dutyToggles n (j + k)) = ((dutyToggle n s).bind (dutyToggles n j)).bind (dutyToggles n k)
    cases dutyToggle n s with
    | none => rfl
    | some u => exact ih u

end Sys2Proof.Machine
end

