-- ==== Sys2Proof/Laws/Strm.lean ====
section
/-! SUPPORT. What a tick of a streaming channel does: the burst loop as one of two outcomes. -/

namespace Sys2Proof.Machine

open Sys2Proof.Safety

@[simp] theorem State.strmCh_setStrmCh (s : State) (n m : StrmIx) (c : StrmCh) :
    (s.setStrmCh n c).strmCh m = if m = n then c else s.strmCh m := vector_get_set _ _ _ _

@[simp] theorem State.strmCh_strmHwSet (s : State) (b : Nat) (m : StrmIx) : (s.strmHwSet b).strmCh m = s.strmCh m := rfl

/-- Two writes of one channel. -/
theorem State.setStrmCh_setStrmCh (s : State) (n : StrmIx) (c c' : StrmCh) :
    (s.setStrmCh n c).setStrmCh n c' = s.setStrmCh n c' := by
  simp only [State.setStrmCh, State.withStrm, vector_set_set]

/-- 46_stream_waveform.md R281. -/
theorem State.strmBlocked_iff (s : State) (n : StrmIx) : s.strmBlocked n = true ↔ Blocked s n := by
  simp only [State.strmBlocked, Bool.or_eq_true, Blocked]

/-- 46_stream_waveform.md R268. -/
theorem runnable_iff (p : Params) (c : StrmCh) : runnable p c = true ↔ Runnable p c := by
  have h1 : c.div = 0 ↔ c.div.toNat = 0 := by rw [← BitVec.toNat_inj]; simp
  have h2 : c.burst = 0 ↔ c.burst.toNat = 0 := by rw [← BitVec.toNat_inj]; simp
  simp only [runnable, Runnable, bitTime, Bool.and_eq_true, bne_iff_ne, ne_eq, h1, h2, and_assoc]

/-- 46_stream_waveform.md R266, in naturals. -/
theorem perA_toNat (w : Word) : (perA w).toNat = w.toNat % 2 ^ 15 := by
  simp [perA, fieldOf, BitVec.extractLsb'_toNat]

theorem perB_toNat (w : Word) : (perB w).toNat = w.toNat / 2 ^ 16 % 2 ^ 15 := by
  simp [perB, fieldOf, BitVec.extractLsb'_toNat, Nat.shiftRight_eq_div_pow]

/-- 46_stream_waveform.md R267. -/
theorem isSentinel_iff (w : Word) : isSentinel w = true ↔ SentinelWord w := by
  have h1 : perA w = 0 ↔ (perA w).toNat = 0 := by rw [← BitVec.toNat_inj]; simp
  have h2 : perB w = 0 ↔ (perB w).toNat = 0 := by rw [← BitVec.toNat_inj]; simp
  simp only [isSentinel, SentinelWord, Bool.and_eq_true, beq_iff_eq, h1, h2, perA_toNat, perB_toNat]

/-- 46_stream_waveform.md R282 to R284: the event of a transferred word. -/
theorem transferEvent_eq (s : State) (n : StrmIx) (w : Word) :
    transferEvent s.params n (sinkItem (s.strmCh n) w) = wordEvent s n w := by
  unfold transferEvent wordEvent sinkItem
  rw [perA_toNat, perB_toNat]
  rfl

/-- The channel with `m` more words sent (R280). -/
def sentCh (c : StrmCh) (m : Nat) : StrmCh := { c with cursor := c.cursor + BitVec.ofNat 6 m, sent := c.sent + m }

/-- The state after `m` words of channel n were sent (R280). -/
def State.strmSent (s : State) (n : StrmIx) (m : Nat) : State :=
  (s.setStrmCh n (sentCh (s.strmCh n) m)).withTrace (s.trace ++ wordEvents s n m)

theorem StrmCh.fetch_eq (c : StrmCh) : c.fetch = ahead c 0 := by
  unfold StrmCh.fetch ahead
  congr 1
  apply Fin.ext
  have := c.cursor.isLt
  simp only [Nat.add_zero]
  omega

theorem ahead_sentCh (c : StrmCh) (m j : Nat) : ahead (sentCh c m) j = ahead c (m + j) := by
  unfold ahead sentCh
  congr 1
  apply Fin.ext
  simp only [BitVec.toNat_add, BitVec.toNat_ofNat]
  omega

theorem sentCh_zero (c : StrmCh) : sentCh c 0 = c := by
  cases c
  simp [sentCh]

theorem sentCh_sentCh (c : StrmCh) (m k : Nat) : sentCh (sentCh c m) k = sentCh c (m + k) := by
  unfold sentCh
  simp only [Nat.add_assoc, BitVec.add_assoc, BitVec.ofNat_add]

theorem wordEvent_sent (s : State) (n : StrmIx) (m : Nat) (w : Word) : wordEvent (s.strmSent n m) n w = wordEvent s n w := by
  have h : (s.strmSent n m).strmCh n = sentCh (s.strmCh n) m := by
    have := State.strmCh_setStrmCh s n n (sentCh (s.strmCh n) m)
    rw [if_pos rfl] at this
    exact this
  unfold wordEvent
  rw [h]
  rfl

theorem State.strmCh_strmSent (s : State) (n : StrmIx) (m : Nat) : (s.strmSent n m).strmCh n = sentCh (s.strmCh n) m := by
  have := State.strmCh_setStrmCh s n n (sentCh (s.strmCh n) m)
  rw [if_pos rfl] at this
  exact this

theorem State.strmSent_zero (s : State) (n : StrmIx) : s.strmSent n 0 = s := by
  unfold State.strmSent
  rw [sentCh_zero]
  unfold State.setStrmCh State.strmCh
  rw [vector_set_get]
  simp only [wordEvents, List.range_zero, List.map_nil, List.append_nil]
  rfl

theorem wordEvents_succ (s : State) (n : StrmIx) (m : Nat) :
    wordEvents s n (m + 1) = wordEvents s n m ++ [wordEvent s n (ahead (s.strmCh n) m)] := by
  simp [wordEvents, List.range_succ]

/-- R280: sending one word more. -/
theorem State.strmSend_strmSent (s : State) (n : StrmIx) (m : Nat) : (s.strmSent n m).strmSend n = s.strmSent n (m + 1) := by
  unfold State.strmSend
  dsimp only
  rw [transferEvent_eq, State.strmCh_strmSent, StrmCh.fetch_eq, ahead_sentCh, Nat.add_zero, wordEvent_sent]
  have e : ({ sentCh (s.strmCh n) m with
      cursor := (sentCh (s.strmCh n) m).cursor + 1, sent := (sentCh (s.strmCh n) m).sent + 1 } : StrmCh) =
      sentCh (s.strmCh n) (m + 1) := sentCh_sentCh (s.strmCh n) m 1
  rw [e]
  unfold State.strmSent
  rw [wordEvents_succ, ← List.append_assoc]
  show (((s.setStrmCh n (sentCh (s.strmCh n) m)).setStrmCh n (sentCh (s.strmCh n) (m + 1)))).withTrace _ = _
  rw [State.setStrmCh_setStrmCh]
  rfl

/-- 46_stream_waveform.md R280: the burst loop ends at the first sentinel inside the burst, or after the whole burst. -/
theorem State.strmBurst_eq (s : State) (n : StrmIx) (k : Nat) : ∀ m,
    (∃ j, j < k ∧ (∀ i, i < j → ¬ SentinelWord (ahead (s.strmCh n) (m + i))) ∧ SentinelWord (ahead (s.strmCh n) (m + j)) ∧
      (s.strmSent n m).strmBurst n k = (s.strmSent n (m + j)).strmComplete n) ∨
    ((∀ i, i < k → ¬ SentinelWord (ahead (s.strmCh n) (m + i))) ∧
      (s.strmSent n m).strmBurst n k = (s.strmSent n (m + k)).strmBurst n 0) := by
  induction k with
  | zero => exact fun m => .inr ⟨fun i h => absurd h (Nat.not_lt_zero i), rfl⟩
  | succ k ih =>
    intro m
    have hf : ((s.strmSent n m).strmCh n).fetch = ahead (s.strmCh n) m := by
      rw [State.strmCh_strmSent, StrmCh.fetch_eq, ahead_sentCh, Nat.add_zero]
    have hstep : (s.strmSent n m).strmBurst n (k + 1) =
        if isSentinel (ahead (s.strmCh n) m) then (s.strmSent n m).strmComplete n
        else (s.strmSent n (m + 1)).strmBurst n k := by
      rw [← hf, ← State.strmSend_strmSent]
      rfl
    rw [hstep]
    by_cases h : isSentinel (ahead (s.strmCh n) m) = true
    · rw [if_pos h]
      exact .inl ⟨0, Nat.succ_pos k, fun i hi => absurd hi (Nat.not_lt_zero i), (isSentinel_iff _).mp h, rfl⟩
    · rw [if_neg h]
      have h' : ¬ SentinelWord (ahead (s.strmCh n) m) := fun x => h ((isSentinel_iff _).mpr x)
      rcases ih (m + 1) with ⟨j, hj, hb, hs, he⟩ | ⟨hb, he⟩
      · refine .inl ⟨j + 1, Nat.succ_lt_succ hj, fun i hi => ?_, ?_, ?_⟩
        · cases i with
          | zero => exact h'
          | succ i => rw [← Nat.add_assoc, Nat.add_right_comm]; exact hb i (Nat.lt_of_succ_lt_succ hi)
        · rw [← Nat.add_assoc, Nat.add_right_comm]; exact hs
        · rw [he]; congr 2; omega
      · refine .inr ⟨fun i hi => ?_, ?_⟩
        · cases i with
          | zero => exact h'
          | succ i => rw [← Nat.add_assoc, Nat.add_right_comm]; exact hb i (Nat.lt_of_succ_lt_succ hi)
        · rw [he]; congr 2; omega

/-- 46_stream_waveform.md R280: everything a tick of a running, unblocked channel does. -/
theorem State.strmTick_spec (s : State) (n : StrmIx) (k : Nat) :
    (∃ j, j < k ∧ (∀ i, i < j → ¬ SentinelWord (ahead (s.strmCh n) i)) ∧ SentinelWord (ahead (s.strmCh n) j) ∧
      s.strmBurst n k = ((s.setStrmCh n { sentCh (s.strmCh n) j with running := false, en := false, sent := 0 }).strmHwSet
        n.val).withTrace (s.trace ++ wordEvents s n j)) ∨
    ((∀ i, i < k → ¬ SentinelWord (ahead (s.strmCh n) i)) ∧
      s.strmBurst n k = (((s.setStrmCh n (sentCh (s.strmCh n) k)).strmHwSet (8 + n.val)).withTrace
        (s.trace ++ wordEvents s n k)).withSched (s.sched.set (.strm n)
          (some (s.now + (s.strmCh n).burst.toNat * bitTime s.params (s.strmCh n))))) := by
  have h := s.strmBurst_eq n k 0
  rw [State.strmSent_zero] at h
  simp only [Nat.zero_add] at h
  rcases h with ⟨j, hj, hb, hs, he⟩ | ⟨hb, he⟩
  · refine .inl ⟨j, hj, hb, hs, ?_⟩
    rw [he]
    unfold State.strmComplete
    rw [State.strmCh_strmSent]
    show (((s.setStrmCh n (sentCh (s.strmCh n) j)).setStrmCh n _).strmHwSet n.val).withTrace _ = _
    rw [State.setStrmCh_setStrmCh]
    rfl
  · refine .inr ⟨hb, ?_⟩
    rw [he]
    show ((s.strmSent n k).strmHwSet (8 + n.val)).arm (.strm n)
      (((s.strmSent n k).strmCh n).burst.toNat * bitTime s.params ((s.strmSent n k).strmCh n)) = _
    rw [State.strmCh_strmSent]
    rfl

end Sys2Proof.Machine
end

