-- ==== Sys2Proof/Laws/Inv.lean ====
section
/-! SUPPORT. The invariant of a concrete state by evaluation: a Boolean check that implies it. -/

namespace Sys2Proof.Machine

open Sys2Proof.Safety

/-- 10_state.md R48 (I3), checked token by token. -/
def deadlinesCheck (s : State) : Bool :=
  Token.all.all fun tok =>
    match s.sched.get tok with
    | some d => decide (s.now ≤ d)
    | none => true

/-- The clauses of `DutyConsistent`, checked channel by channel. -/
def dutyCheck (s : State) : Bool :=
  (List.finRange 8).all fun n =>
    (s.dutyCh n).running == (s.sched.get (.duty n)).isSome && ((s.dutyCh n).running || !(s.dutyCh n).phase) &&
      (!(s.dutyCh n).running || (s.dutyCh n).en && (dutyTimes s.params (s.dutyCh n)).isSome)

/-- The clauses of `McmpConsistent`, checked output by output. -/
def mcmpCheck (s : State) : Bool :=
  (List.finRange 3).all fun o => (List.finRange 2).all fun k =>
    (s.mcmpOut o k).running == (s.sched.get (.mcmp o k)).isSome && ((s.mcmpOut o k).running || !(s.mcmpOut o k).phase)

/-- The clauses of `StrmConsistent`, checked channel by channel. -/
def strmCheck (s : State) : Bool :=
  (List.finRange 4).all fun n =>
    ((s.strmCh n).running || (s.sched.get (.strm n)).isNone && !(s.strmCh n).pending) &&
    (!(s.strmCh n).running ||
      (s.strmCh n).en && runnable s.params (s.strmCh n) && ((s.strmCh n).pending == (s.sched.get (.strm n)).isNone)) &&
    (!(s.strmCh n).pending || s.strmBlocked n) &&
    !(s.strm.latch.raw.getLsbD n.val && s.strm.latch.raw.getLsbD (8 + n.val))

/-- The whole invariant as a Boolean. -/
def invCheck (s : State) : Bool :=
  deadlinesCheck s && dutyCheck s && mcmpCheck s && strmCheck s &&
    decide (s.strm.latch.raw &&& ~~~(0x0F0F : BitVec 16) = 0 ∧ s.strm.latch.enable &&& ~~~(0x0F0F : BitVec 16) = 0)

theorem deadlinesAhead_of_check {s : State} (h : deadlinesCheck s = true) : DeadlinesAhead s := by
  intro tok d hd
  have := List.all_eq_true.mp h tok (Token.mem_all tok)
  rw [hd] at this
  simpa using this

theorem dutyConsistent_of_check {s : State} (h : dutyCheck s = true) : DutyConsistent s := by
  intro n
  have := List.all_eq_true.mp h n (List.mem_finRange n)
  simp only [Bool.and_eq_true, Bool.or_eq_true, beq_iff_eq, Bool.not_eq_true', Option.isSome_iff_ne_none] at this
  obtain ⟨⟨h1, h2⟩, h3⟩ := this
  refine ⟨h1, fun hr => ?_, fun hr => ?_⟩
  · rcases h2 with h2 | h2
    · rw [hr] at h2; cases h2
    · exact h2
  · rcases h3 with h3 | h3
    · rw [hr] at h3; cases h3
    · exact h3

theorem mcmpConsistent_of_check {s : State} (h : mcmpCheck s = true) : McmpConsistent s := by
  intro o k
  have := List.all_eq_true.mp (List.all_eq_true.mp h o (List.mem_finRange o)) k (List.mem_finRange k)
  simp only [Bool.and_eq_true, Bool.or_eq_true, beq_iff_eq, Bool.not_eq_true'] at this
  refine ⟨this.1, fun hr => ?_⟩
  rcases this.2 with h2 | h2
  · rw [hr] at h2; cases h2
  · exact h2

theorem strmConsistent_of_check {s : State} (h : strmCheck s = true) : StrmConsistent s := by
  intro n
  have := List.all_eq_true.mp h n (List.mem_finRange n)
  simp only [Bool.and_eq_true, Bool.or_eq_true, beq_iff_eq, Bool.not_eq_true', Option.isNone_iff_eq_none,
    Bool.and_eq_false_iff] at this
  obtain ⟨⟨⟨h1, h2⟩, h3⟩, h4⟩ := this
  refine ⟨fun hr => ?_, fun hr => ?_, fun hp => ?_, fun hb => ?_⟩
  · rcases h1 with h1 | h1
    · rw [hr] at h1; cases h1
    · exact h1
  · rcases h2 with h2 | h2
    · rw [hr] at h2; cases h2
    · refine ⟨h2.1.1, (runnable_iff _ _).mp h2.1.2, ?_⟩
      rw [h2.2, Option.isNone_iff_eq_none]
  · rcases h3 with h3 | h3
    · rw [hp] at h3; cases h3
    · exact (State.strmBlocked_iff _ _).mp h3
  · rcases h4 with h4 | h4
    · rw [hb.1] at h4; cases h4
    · rw [hb.2] at h4; cases h4

/-- A state that passes the check meets the invariant. -/
theorem inv_of_check {s : State} (h : invCheck s = true) : Inv s := by
  simp only [invCheck, Bool.and_eq_true, decide_eq_true_eq] at h
  exact ⟨deadlinesAhead_of_check h.1.1.1.1, dutyConsistent_of_check h.1.1.1.2, mcmpConsistent_of_check h.1.1.2,
    strmConsistent_of_check h.1.2, h.2⟩

end Sys2Proof.Machine
end

