-- ==== Sys2Proof/Laws/Mcmp.lean ====
section
/-! SUPPORT. What the procedures of the compare engine do: each is one output channel replaced, one slot replaced and the
events of a change of phase. -/

namespace Sys2Proof.Machine

open Sys2Proof.Safety

@[simp] theorem State.mcmpOut_setMcmpOut (s : State) (o o' : OpIx) (k k' : OutIx) (c : OutCh) :
    (s.setMcmpOut o k c).mcmpOut o' k' = if o' = o ∧ k' = k then c else s.mcmpOut o' k' := by
  unfold State.mcmpOut State.setMcmpOut
  simp only [State.withMcmp_mcmp, vector_get_set]
  by_cases h : o' = o
  · subst h; simp
  · simp [h]

@[simp] theorem State.mcmpOp_setMcmpOut (s : State) (o o' : OpIx) (k : OutIx) (c : OutCh) :
    (s.setMcmpOut o k c).mcmpOp o' = s.mcmpOp o' := rfl

@[simp] theorem State.mcmpOp_setMcmpOp (s : State) (o o' : OpIx) (x : Oper) :
    (s.setMcmpOp o x).mcmpOp o' = if o' = o then x else s.mcmpOp o' := vector_get_set _ _ _ _

@[simp] theorem State.mcmpOut_setMcmpOp (s : State) (o o' : OpIx) (k : OutIx) (x : Oper) :
    (s.setMcmpOp o x).mcmpOut o' k = s.mcmpOut o' k := rfl

/-- Two writes of one output channel. -/
theorem State.setMcmpOut_setMcmpOut (s : State) (o : OpIx) (k : OutIx) (c c' : OutCh) :
    (s.setMcmpOut o k c).setMcmpOut o k c' = s.setMcmpOut o k c' := by
  simp only [State.setMcmpOut, State.withMcmp, vector_set_set, vector_get_set, if_true]

/-- The state after output channel (o,k), its slot and the trace were written. -/
def State.mcmpPut (s : State) (o : OpIx) (k : OutIx) (c : OutCh) (d : Option Nat) (es : List Event) : State :=
  ((s.setMcmpOut o k c).withSched (s.sched.set (.mcmp o k) d)).withTrace (s.trace ++ es)

/-- 45_multi_timer_compare.md R245. -/
theorem State.mcmpSetPhase_eq (s : State) (o : OpIx) (k : OutIx) (v : Bool) :
    s.mcmpSetPhase o k v = (s.setMcmpOut o k { s.mcmpOut o k with phase := v }).withTrace
      (s.trace ++ phaseEvents s (s.params.mcmpSigBase + 2 * o.val + k.val) (s.mcmpOut o k).phase v) := by
  unfold State.mcmpSetPhase
  split
  · rename_i h
    subst h
    have : s.setMcmpOut o k { s.mcmpOut o k with phase := (s.mcmpOut o k).phase } = s := by
      have e : ({ s.mcmpOut o k with phase := (s.mcmpOut o k).phase } : OutCh) = (s.mcmp.out.get o).get k := rfl
      unfold State.setMcmpOut
      rw [e, vector_set_get, vector_set_get]
      rfl
    rw [this]
    simp only [phaseEvents, if_pos, List.append_nil]
    rfl
  · rename_i h
    rw [State.announce_eq]
    simp only [phaseEvents, h, if_false]
    rfl

/-- `McmpTimes` reads the operator, its timer and the clock only. -/
theorem State.mcmpTimes_congr {s t : State} (o : OpIx) (x : Cmp) (hp : t.params = s.params) (ht : t.mcmp.tmr = s.mcmp.tmr)
    (ho : t.mcmpOp o = s.mcmpOp o) : t.mcmpTimes o x = s.mcmpTimes o x := by
  unfold State.mcmpTimes
  rw [hp, ht, ho]

/-- 45_multi_timer_compare.md R246: everything `McmpArm` does. -/
theorem State.mcmpArm_eq (s : State) (o : OpIx) (k : OutIx) (x : Cmp) :
    s.mcmpArm o k x = match s.mcmpTimes o x with
      | none => s.mcmpPut o k ⟨false, false, x⟩ none
          (phaseEvents s (s.params.mcmpSigBase + 2 * o.val + k.val) (s.mcmpOut o k).phase false)
      | some (on, _) => s.mcmpPut o k ⟨true, true, x⟩ (some (s.now + on))
          (phaseEvents s (s.params.mcmpSigBase + 2 * o.val + k.val) (s.mcmpOut o k).phase true) := by
  have e : ∀ r, (((s.cancel (.mcmp o k)).setMcmpOut o k { s.mcmpOut o k with src := x }).mcmpSetRunning o k r).mcmpOut o k
      = { s.mcmpOut o k with src := x, running := r } := by
    intro r
    unfold State.mcmpSetRunning
    rw [State.mcmpOut_setMcmpOut, if_pos ⟨rfl, rfl⟩, State.mcmpOut_setMcmpOut, if_pos ⟨rfl, rfl⟩]
  unfold State.mcmpArm
  cases h : s.mcmpTimes o x with
  | none =>
    dsimp only
    rw [State.mcmpSetPhase_eq, e]
    unfold State.mcmpSetRunning
    rw [State.setMcmpOut_setMcmpOut, State.setMcmpOut_setMcmpOut]
    rfl
  | some p =>
    obtain ⟨on, off⟩ := p
    dsimp only
    rw [State.mcmpSetPhase_eq, e]
    unfold State.mcmpSetRunning
    rw [State.setMcmpOut_setMcmpOut, State.setMcmpOut_setMcmpOut]
    unfold State.arm
    simp only [State.withTrace_sched, State.setMcmpOut_sched, State.cancel_sched, Sched.set_set]
    rfl

/-- 45_multi_timer_compare.md R248: everything the callback does. -/
theorem State.mcmpFire_eq (s : State) (o : OpIx) (k : OutIx) :
    let c := s.mcmpOut o k
    let sig := s.params.mcmpSigBase + 2 * o.val + k.val
    s.mcmpFire o k = match s.mcmpTimes o c.src with
      | none => s.mcmpPut o k { c with running := false, phase := false } none
          (forwards s sig (!c.phase) none ++ phaseEvents s sig (!c.phase) false)
      | some (on, off) => s.mcmpPut o k { c with phase := !c.phase } (some (s.now + if !c.phase then on else off))
          (forwards s sig (!c.phase) none) := by
  intro c sig
  have key : (s.cancel (.mcmp o k)).mcmpSetPhase o k (!(s.mcmpOut o k).phase) =
      s.mcmpPut o k { c with phase := !c.phase } none (forwards s sig (!c.phase) none) := by
    rw [State.mcmpSetPhase_eq]
    have hp : (s.cancel (.mcmp o k)).mcmpOut o k = c := rfl
    have hq : (s.mcmpOut o k) = c := rfl
    rw [hp, hq, phaseEvents_not]
    rfl
  unfold State.mcmpFire
  rw [key]
  generalize he : forwards s sig (!c.phase) none = es
  have hch : (s.mcmpPut o k { c with phase := !c.phase } none es).mcmpOut o k = { c with phase := !c.phase } := by
    have := State.mcmpOut_setMcmpOut s o o k k { c with phase := !c.phase }
    rw [if_pos ⟨rfl, rfl⟩] at this
    exact this
  unfold State.mcmpRearm
  rw [hch]
  have ht : (s.mcmpPut o k { c with phase := !c.phase } none es).mcmpTimes o c.src = s.mcmpTimes o c.src :=
    State.mcmpTimes_congr o _ rfl rfl rfl
  dsimp only
  rw [ht]
  cases s.mcmpTimes o c.src with
  | none =>
    dsimp only
    rw [State.mcmpSetPhase_eq]
    have e2 : ((s.mcmpPut o k { c with phase := !c.phase } none es).mcmpSetRunning o k false).mcmpOut o k =
        { c with phase := !c.phase, running := false } := by
      unfold State.mcmpSetRunning
      rw [State.mcmpOut_setMcmpOut, if_pos ⟨rfl, rfl⟩, hch]
    rw [e2]
    unfold State.mcmpSetRunning
    rw [State.setMcmpOut_setMcmpOut, hch]
    have e3 : ∀ d, (s.mcmpPut o k { c with phase := !c.phase } none es).setMcmpOut o k d = s.mcmpPut o k d none es := by
      intro d
      simp only [State.mcmpPut, State.setMcmpOut, State.withMcmp, State.withTrace, State.withSched, vector_set_set,
        vector_get_set, if_true]
    rw [e3]
    show (s.mcmpPut o k { c with running := false, phase := false } none es).withTrace
      ((s.trace ++ es) ++ phaseEvents s sig (!c.phase) false) = _
    rw [List.append_assoc]
    rfl
  | some p =>
    obtain ⟨on, off⟩ := p
    dsimp only
    unfold State.arm
    simp only [State.mcmpPut, State.withTrace_sched, State.withSched_sched, Sched.set_set]
    rfl

end Sys2Proof.Machine
end

