-- ==== Sys2Proof/Laws/PerInstr.lean ====
section
/-! SUPPORT. Said of every operation, one lemma per constructor: the request of a well-formed bus access is an access of one
whole aligned word inside its window (20_memory.md R60, R64). -/

namespace Sys2Proof.Laws.WordAccess

/-- A bus request is 32 bits wide, at an offset that is a multiple of 4 and at most 0xFFC. -/
def Statement (i : Instr) : Prop :=
  i.wf = true →
    (∀ win off width, encode i = .busRead win off width → width = 32 ∧ off % 4 = 0 ∧ off ≤ 0xFFC) ∧
      ∀ win off width v, encode i = .busWrite win off width v → width = 32 ∧ off % 4 = 0 ∧ off ≤ 0xFFC

theorem of_read {i : Instr} {w : Window} {o : Nat} (h : encode i = .busRead w o 32) (ho : o % 4 = 0 ∧ o ≤ 0xFFC) :
    Statement i := by
  intro _
  rw [h]
  refine ⟨fun win off width e => ?_, fun win off width v e => by cases e⟩
  cases e
  exact ⟨rfl, ho⟩

theorem of_write {i : Instr} {w : Window} {o : Nat} {v : Word} (h : encode i = .busWrite w o 32 v)
    (ho : o % 4 = 0 ∧ o ≤ 0xFFC) : Statement i := by
  intro _
  rw [h]
  refine ⟨fun win off width e => (by cases e), fun win off width v e => ?_⟩
  cases e
  exact ⟨rfl, ho⟩

theorem of_other {i : Instr} (hr : ∀ win off width, encode i ≠ .busRead win off width)
    (hw : ∀ win off width v, encode i ≠ .busWrite win off width v) : Statement i :=
  fun _ => ⟨fun _ _ _ e => absurd e (hr _ _ _), fun _ _ _ _ e => absurd e (hw _ _ _ _)⟩

theorem unmapped_offset {win : Window} {off : BitVec 12} (h : win.unmappedWord off.toNat = true) :
    off.toNat % 4 = 0 ∧ off.toNat ≤ 0xFFC := by
  have hlt := off.isLt
  have h4 : off.toNat % 4 = 0 := by simpa using (Bool.and_eq_true_iff.mp h).1
  omega

theorem rGpioLevelLo : Statement .rGpioLevelLo := of_read rfl (by omega)
theorem wGpioLevelLo (v : Word) : Statement (.wGpioLevelLo v) := of_write rfl (by omega)
theorem rGpioLevelHi : Statement .rGpioLevelHi := of_read rfl (by omega)
theorem wGpioLevelHi (v : Word) : Statement (.wGpioLevelHi v) := of_write rfl (by omega)
theorem rGpioARawLo : Statement .rGpioARawLo := of_read rfl (by omega)
theorem wGpioARawLo (v : Word) : Statement (.wGpioARawLo v) := of_write rfl (by omega)
theorem rGpioARawHi : Statement .rGpioARawHi := of_read rfl (by omega)
theorem wGpioARawHi (v : Word) : Statement (.wGpioARawHi v) := of_write rfl (by omega)
theorem rGpioAStatusLo : Statement .rGpioAStatusLo := of_read rfl (by omega)
theorem wGpioAStatusLo (v : Word) : Statement (.wGpioAStatusLo v) := of_write rfl (by omega)
theorem rGpioAStatusHi : Statement .rGpioAStatusHi := of_read rfl (by omega)
theorem wGpioAStatusHi (v : Word) : Statement (.wGpioAStatusHi v) := of_write rfl (by omega)
theorem rGpioAEnableLo : Statement .rGpioAEnableLo := of_read rfl (by omega)
theorem wGpioAEnableLo (v : Word) : Statement (.wGpioAEnableLo v) := of_write rfl (by omega)
theorem rGpioAEnableHi : Statement .rGpioAEnableHi := of_read rfl (by omega)
theorem wGpioAEnableHi (v : Word) : Statement (.wGpioAEnableHi v) := of_write rfl (by omega)
theorem rGpioAClearLo : Statement .rGpioAClearLo := of_read rfl (by omega)
theorem wGpioAClearLo (v : Word) : Statement (.wGpioAClearLo v) := of_write rfl (by omega)
theorem rGpioAClearHi : Statement .rGpioAClearHi := of_read rfl (by omega)
theorem wGpioAClearHi (v : Word) : Statement (.wGpioAClearHi v) := of_write rfl (by omega)
theorem rGpioBRawLo : Statement .rGpioBRawLo := of_read rfl (by omega)
theorem wGpioBRawLo (v : Word) : Statement (.wGpioBRawLo v) := of_write rfl (by omega)
theorem rGpioBRawHi : Statement .rGpioBRawHi := of_read rfl (by omega)
theorem wGpioBRawHi (v : Word) : Statement (.wGpioBRawHi v) := of_write rfl (by omega)
theorem rGpioBStatusLo : Statement .rGpioBStatusLo := of_read rfl (by omega)
theorem wGpioBStatusLo (v : Word) : Statement (.wGpioBStatusLo v) := of_write rfl (by omega)
theorem rGpioBStatusHi : Statement .rGpioBStatusHi := of_read rfl (by omega)
theorem wGpioBStatusHi (v : Word) : Statement (.wGpioBStatusHi v) := of_write rfl (by omega)
theorem rGpioBEnableLo : Statement .rGpioBEnableLo := of_read rfl (by omega)
theorem wGpioBEnableLo (v : Word) : Statement (.wGpioBEnableLo v) := of_write rfl (by omega)
theorem rGpioBEnableHi : Statement .rGpioBEnableHi := of_read rfl (by omega)
theorem wGpioBEnableHi (v : Word) : Statement (.wGpioBEnableHi v) := of_write rfl (by omega)
theorem rGpioBClearLo : Statement .rGpioBClearLo := of_read rfl (by omega)
theorem wGpioBClearLo (v : Word) : Statement (.wGpioBClearLo v) := of_write rfl (by omega)
theorem rGpioBClearHi : Statement .rGpioBClearHi := of_read rfl (by omega)
theorem wGpioBClearHi (v : Word) : Statement (.wGpioBClearHi v) := of_write rfl (by omega)
theorem rGpioPinCfg (p : PinIx) : Statement (.rGpioPinCfg p) := of_read rfl (by omega)
theorem wGpioPinCfg (p : PinIx) (v : Word) : Statement (.wGpioPinCfg p v) := of_write rfl (by omega)
theorem rGpioOutsel (p : PinIx) : Statement (.rGpioOutsel p) := of_read rfl (by omega)
theorem wGpioOutsel (p : PinIx) (v : Word) : Statement (.wGpioOutsel p v) := of_write rfl (by omega)
theorem rGpioInsel (s : SigIx) : Statement (.rGpioInsel s) := of_read rfl (by omega)
theorem wGpioInsel (s : SigIx) (v : Word) : Statement (.wGpioInsel s v) := of_write rfl (by omega)
theorem rDutyChConf (n : DutyIx) : Statement (.rDutyChConf n) := of_read rfl (by omega)
theorem wDutyChConf (n : DutyIx) (v : Word) : Statement (.wDutyChConf n v) := of_write rfl (by omega)
theorem rDutyChDuty (n : DutyIx) : Statement (.rDutyChDuty n) := of_read rfl (by omega)
theorem wDutyChDuty (n : DutyIx) (v : Word) : Statement (.wDutyChDuty n v) := of_write rfl (by omega)
theorem rDutyChFade (n : DutyIx) : Statement (.rDutyChFade n) := of_read rfl (by omega)
theorem wDutyChFade (n : DutyIx) (v : Word) : Statement (.wDutyChFade n v) := of_write rfl (by omega)
theorem rDutyChPct (n : DutyIx) : Statement (.rDutyChPct n) := of_read rfl (by omega)
theorem wDutyChPct (n : DutyIx) (v : Word) : Statement (.wDutyChPct n v) := of_write rfl (by omega)
theorem rDutyIntRaw : Statement .rDutyIntRaw := of_read rfl (by omega)
theorem wDutyIntRaw (v : Word) : Statement (.wDutyIntRaw v) := of_write rfl (by omega)
theorem rDutyIntStatus : Statement .rDutyIntStatus := of_read rfl (by omega)
theorem wDutyIntStatus (v : Word) : Statement (.wDutyIntStatus v) := of_write rfl (by omega)
theorem rDutyIntEnable : Statement .rDutyIntEnable := of_read rfl (by omega)
theorem wDutyIntEnable (v : Word) : Statement (.wDutyIntEnable v) := of_write rfl (by omega)
theorem rDutyIntClear : Statement .rDutyIntClear := of_read rfl (by omega)
theorem wDutyIntClear (v : Word) : Statement (.wDutyIntClear v) := of_write rfl (by omega)
theorem rMcmpTmrCfg (t : TmrIx) : Statement (.rMcmpTmrCfg t) := of_read rfl (by omega)
theorem wMcmpTmrCfg (t : TmrIx) (v : Word) : Statement (.wMcmpTmrCfg t v) := of_write rfl (by omega)
theorem rMcmpOpMode (o : OpIx) : Statement (.rMcmpOpMode o) := of_read rfl (by omega)
theorem wMcmpOpMode (o : OpIx) (v : Word) : Statement (.wMcmpOpMode o v) := of_write rfl (by omega)
theorem rMcmpOpCmpa (o : OpIx) : Statement (.rMcmpOpCmpa o) := of_read rfl (by omega)
theorem wMcmpOpCmpa (o : OpIx) (v : Word) : Statement (.wMcmpOpCmpa o v) := of_write rfl (by omega)
theorem rMcmpOpCmpb (o : OpIx) : Statement (.rMcmpOpCmpb o) := of_read rfl (by omega)
theorem wMcmpOpCmpb (o : OpIx) (v : Word) : Statement (.wMcmpOpCmpb o v) := of_write rfl (by omega)
theorem rStrmChConf (n : StrmIx) : Statement (.rStrmChConf n) := of_read rfl (by omega)
theorem wStrmChConf (n : StrmIx) (v : Word) : Statement (.wStrmChConf n v) := of_write rfl (by omega)
theorem rStrmIntRaw : Statement .rStrmIntRaw := of_read rfl (by omega)
theorem wStrmIntRaw (v : Word) : Statement (.wStrmIntRaw v) := of_write rfl (by omega)
theorem rStrmIntStatus : Statement .rStrmIntStatus := of_read rfl (by omega)
theorem wStrmIntStatus (v : Word) : Statement (.wStrmIntStatus v) := of_write rfl (by omega)
theorem rStrmIntEnable : Statement .rStrmIntEnable := of_read rfl (by omega)
theorem wStrmIntEnable (v : Word) : Statement (.wStrmIntEnable v) := of_write rfl (by omega)
theorem rStrmIntClear : Statement .rStrmIntClear := of_read rfl (by omega)
theorem wStrmIntClear (v : Word) : Statement (.wStrmIntClear v) := of_write rfl (by omega)
theorem rStrmRam (n : StrmIx) (i : RingIx) : Statement (.rStrmRam n i) := of_read rfl (by omega)
theorem wStrmRam (n : StrmIx) (i : RingIx) (v : Word) : Statement (.wStrmRam n i v) := of_write rfl (by omega)
theorem rUnmapped (win : Window) (off : BitVec 12) : Statement (.rUnmapped win off) := fun h => of_read rfl (unmapped_offset h) h
theorem wUnmapped (win : Window) (off : BitVec 12) (v : Word) : Statement (.wUnmapped win off v) := fun h => of_write rfl (unmapped_offset h) h
theorem pinIn (p : PinIx) (v : Bool) : Statement (.pinIn p v) :=
  of_other (fun _ _ _ e => by cases e) (fun _ _ _ _ e => by cases e)
theorem announce (sig : SigIx) (level : Bool) (param : Option Word) : Statement (.announce sig level param) :=
  of_other (fun _ _ _ e => by cases e) (fun _ _ _ _ e => by cases e)
theorem advance (t : Nat) : Statement (.advance t) :=
  of_other (fun _ _ _ e => by cases e) (fun _ _ _ _ e => by cases e)
theorem fireDuty (n : DutyIx) : Statement (.fireDuty n) :=
  of_other (fun _ _ _ e => by cases e) (fun _ _ _ _ e => by cases e)
theorem fireMcmp (o : OpIx) (k : OutIx) : Statement (.fireMcmp o k) :=
  of_other (fun _ _ _ e => by cases e) (fun _ _ _ _ e => by cases e)
theorem fireStrm (n : StrmIx) : Statement (.fireStrm n) :=
  of_other (fun _ _ _ e => by cases e) (fun _ _ _ _ e => by cases e)
theorem reset : Statement .reset :=
  of_other (fun _ _ _ e => by cases e) (fun _ _ _ _ e => by cases e)

end Sys2Proof.Laws.WordAccess
end

