-- ==== Sys2Proof/Tests/Slice0.lean ====
section
/-! SUPPORT. The model's own tests. The words are written out from 30_encoding.md R86 and R95 to R98; the expected results
are the examples of the rules and of 95_test_vectors.md. -/

namespace Sys2Proof.Tests

open Sys2Proof.Machine Sys2Proof.Safety

-- One theorem after the other: many kernel evaluations at once need a thread each.
set_option Elab.async false

/-! What a well-formed operation is. -/

/-- A mapped offset is no unmapped access (R95, R98). -/
theorem test_wf_refuses_mapped_offset :
    Instr.wf (.rUnmapped .gpio 0x000) = false ∧ Instr.wf (.wUnmapped .gpio 0x1C0 0) = false ∧
    Instr.wf (.rUnmapped .duty 0x0CC) = false ∧ Instr.wf (.wUnmapped .mcmp 0x068 0) = false ∧
    Instr.wf (.rUnmapped .strm 0x7FC) = false := by decide

/-- An offset that is no multiple of 4 is no access (20_memory.md R64). -/
theorem test_wf_refuses_misaligned_offset :
    Instr.wf (.rUnmapped .gpio 0x009) = false ∧ Instr.wf (.wUnmapped .duty 0x0D2 0) = false ∧
    Instr.wf (.rUnmapped .mcmp 0x00F) = false ∧ Instr.wf (.wUnmapped .strm 0x801 0) = false := by decide

/-- The first and the last offset of unmapped ranges (R95 to R98). -/
theorem test_wf_accepts_unmapped_offset :
    Instr.wf (.rUnmapped .gpio 0x008) = true ∧ Instr.wf (.wUnmapped .gpio 0xFFC 0) = true ∧
    Instr.wf (.rUnmapped .duty 0x080) = true ∧ Instr.wf (.rUnmapped .mcmp 0x06C) = true ∧
    Instr.wf (.wUnmapped .strm 0x004 0) = true ∧ Instr.wf (.rUnmapped .strm 0x0D0) = true := by decide

/-- The sizes of the maps: 372, 36, 12 and 264 mapped words (10_state.md R21) of 1024. -/
theorem test_mapped_word_counts :
    [Window.gpio, .duty, .mcmp, .strm].map
      (fun w => (List.range 1024).countP (fun k => !w.listsUnmapped (4 * k))) = [372, 36, 12, 264] := by decide +kernel

/-! Decoding. A selector is written as its three fields, one binary digit a bit: direction, window, offset. -/

/-- The selector `sel` alone is the bus read `i`. -/
abbrev reads (sel : Nat) (i : Instr) : Prop := decodeTableWord 16 sel = some i

/-- The selector `sel` with the data word `v` above it is the bus write `i`. -/
abbrev writes (sel : Nat) (v : Nat) (i : Instr) : Prop := decodeTableWord 48 (v * 2 ^ 16 + sel) = some i

/-- `LEVEL_LO`, `LEVEL_HI` (R95). -/
theorem test_decode_gpio_levels :
    reads 0b0_00_000000000000 .rGpioLevelLo ∧
    writes 0b1_00_000000000000 0x80000001 (.wGpioLevelLo 0x80000001) ∧
    reads 0b0_00_000000000100 .rGpioLevelHi ∧
    writes 0b1_00_000000000100 0x80000001 (.wGpioLevelHi 0x80000001) := by decide +kernel

/-- The latch words of context A (R95). -/
theorem test_decode_gpio_context_a :
    reads 0b0_00_000000010000 .rGpioARawLo ∧
    writes 0b1_00_000000010000 0x80000001 (.wGpioARawLo 0x80000001) ∧
    reads 0b0_00_000000010100 .rGpioARawHi ∧
    writes 0b1_00_000000010100 0x80000001 (.wGpioARawHi 0x80000001) ∧
    reads 0b0_00_000000011000 .rGpioAStatusLo ∧
    writes 0b1_00_000000011000 0x80000001 (.wGpioAStatusLo 0x80000001) ∧
    reads 0b0_00_000000011100 .rGpioAStatusHi ∧
    writes 0b1_00_000000011100 0x80000001 (.wGpioAStatusHi 0x80000001) ∧
    reads 0b0_00_000000100000 .rGpioAEnableLo ∧
    writes 0b1_00_000000100000 0x80000001 (.wGpioAEnableLo 0x80000001) ∧
    reads 0b0_00_000000100100 .rGpioAEnableHi ∧
    writes 0b1_00_000000100100 0x80000001 (.wGpioAEnableHi 0x80000001) ∧
    reads 0b0_00_000000101000 .rGpioAClearLo ∧
    writes 0b1_00_000000101000 0x80000001 (.wGpioAClearLo 0x80000001) ∧
    reads 0b0_00_000000101100 .rGpioAClearHi ∧
    writes 0b1_00_000000101100 0x80000001 (.wGpioAClearHi 0x80000001) := by decide +kernel

/-- The latch words of context B (R95). -/
theorem test_decode_gpio_context_b :
    reads 0b0_00_000000110000 .rGpioBRawLo ∧
    writes 0b1_00_000000110000 0x80000001 (.wGpioBRawLo 0x80000001) ∧
    reads 0b0_00_000000110100 .rGpioBRawHi ∧
    writes 0b1_00_000000110100 0x80000001 (.wGpioBRawHi 0x80000001) ∧
    reads 0b0_00_000000111000 .rGpioBStatusLo ∧
    writes 0b1_00_000000111000 0x80000001 (.wGpioBStatusLo 0x80000001) ∧
    reads 0b0_00_000000111100 .rGpioBStatusHi ∧
    writes 0b1_00_000000111100 0x80000001 (.wGpioBStatusHi 0x80000001) ∧
    reads 0b0_00_000001000000 .rGpioBEnableLo ∧
    writes 0b1_00_000001000000 0x80000001 (.wGpioBEnableLo 0x80000001) ∧
    reads 0b0_00_000001000100 .rGpioBEnableHi ∧
    writes 0b1_00_000001000100 0x80000001 (.wGpioBEnableHi 0x80000001) ∧
    reads 0b0_00_000001001000 .rGpioBClearLo ∧
    writes 0b1_00_000001001000 0x80000001 (.wGpioBClearLo 0x80000001) ∧
    reads 0b0_00_000001001100 .rGpioBClearHi ∧
    writes 0b1_00_000001001100 0x80000001 (.wGpioBClearHi 0x80000001) := by decide +kernel

/-- `PIN48_CFG`, `OUTSEL12`, `INSEL255` (R95). -/
theorem test_decode_gpio_tables :
    reads 0b0_00_000111000000 (.rGpioPinCfg 48) ∧
    writes 0b1_00_000100010100 0x0000000D (.wGpioPinCfg 5 0x0000000D) ∧
    reads 0b0_00_001011000000 (.rGpioOutsel 48) ∧
    writes 0b1_00_001000110000 0x00000040 (.wGpioOutsel 12 0x00000040) ∧
    reads 0b0_00_011111111100 (.rGpioInsel 255) ∧
    writes 0b1_00_010000001100 0x00000045 (.wGpioInsel 3 0x00000045) := by decide +kernel

/-- The `DUTY` window (R96). -/
theorem test_decode_duty :
    reads 0b0_01_000001110000 (.rDutyChConf 7) ∧
    writes 0b1_01_000000110000 0x8000004A (.wDutyChConf 3 0x8000004A) ∧
    reads 0b0_01_000001110100 (.rDutyChDuty 7) ∧
    writes 0b1_01_000000110100 0x8000004A (.wDutyChDuty 3 0x8000004A) ∧
    reads 0b0_01_000001111000 (.rDutyChFade 7) ∧
    writes 0b1_01_000000111000 0x8000004A (.wDutyChFade 3 0x8000004A) ∧
    reads 0b0_01_000001111100 (.rDutyChPct 7) ∧
    writes 0b1_01_000000111100 0x8000004A (.wDutyChPct 3 0x8000004A) ∧
    reads 0b0_01_000011000000 .rDutyIntRaw ∧
    writes 0b1_01_000011000000 0x000000FF (.wDutyIntRaw 0x000000FF) ∧
    reads 0b0_01_000011000100 .rDutyIntStatus ∧
    writes 0b1_01_000011000100 0x000000FF (.wDutyIntStatus 0x000000FF) ∧
    reads 0b0_01_000011001000 .rDutyIntEnable ∧
    writes 0b1_01_000011001000 0x000000FF (.wDutyIntEnable 0x000000FF) ∧
    reads 0b0_01_000011001100 .rDutyIntClear ∧
    writes 0b1_01_000011001100 0x000000FF (.wDutyIntClear 0x000000FF) := by decide +kernel

/-- The `MCMP` window (R97). -/
theorem test_decode_mcmp :
    reads 0b0_10_000000001000 (.rMcmpTmrCfg 2) ∧
    writes 0b1_10_000000000100 0x0003E801 (.wMcmpTmrCfg 1 0x0003E801) ∧
    reads 0b0_10_000001100000 (.rMcmpOpMode 2) ∧
    writes 0b1_10_000001010000 0x00000003 (.wMcmpOpMode 1 0x00000003) ∧
    reads 0b0_10_000001100100 (.rMcmpOpCmpa 2) ∧
    writes 0b1_10_000001010100 0x00000003 (.wMcmpOpCmpa 1 0x00000003) ∧
    reads 0b0_10_000001101000 (.rMcmpOpCmpb 2) ∧
    writes 0b1_10_000001011000 0x00000003 (.wMcmpOpCmpb 1 0x00000003) := by decide +kernel

/-- The `STRM` window (R98). -/
theorem test_decode_strm :
    reads 0b0_11_000000110000 (.rStrmChConf 3) ∧
    writes 0b1_11_000000010000 0x80000202 (.wStrmChConf 1 0x80000202) ∧
    reads 0b0_11_000011000000 .rStrmIntRaw ∧
    writes 0b1_11_000011000000 0x00000101 (.wStrmIntRaw 0x00000101) ∧
    reads 0b0_11_000011000100 .rStrmIntStatus ∧
    writes 0b1_11_000011000100 0x00000101 (.wStrmIntStatus 0x00000101) ∧
    reads 0b0_11_000011001000 .rStrmIntEnable ∧
    writes 0b1_11_000011001000 0x00000101 (.wStrmIntEnable 0x00000101) ∧
    reads 0b0_11_000011001100 .rStrmIntClear ∧
    writes 0b1_11_000011001100 0x00000101 (.wStrmIntClear 0x00000101) ∧
    reads 0b0_11_011111111100 (.rStrmRam 3 63) ∧
    writes 0b1_11_011000000100 0x00648064 (.wStrmRam 2 1 0x00648064) := by decide +kernel

/-- Offsets that R95 to R98 list as unmapped: `PINp_CFG` with p = 49, the rest of a channel's bytes, the end of a window. -/
theorem test_decode_unmapped :
    reads 0b0_00_000111000100 (.rUnmapped .gpio 0x1C4) ∧
    writes 0b1_10_000001001100 0xFFFFFFFF (.wUnmapped .mcmp 0x04C 0xFFFFFFFF) ∧
    reads 0b0_01_000011010000 (.rUnmapped .duty 0x0D0) ∧
    writes 0b1_11_111111111100 0xFFFFFFFF (.wUnmapped .strm 0xFFC 0xFFFFFFFF) := by decide +kernel

/-- The operations that are no bus access, by their operands (R85). -/
theorem test_decode_other_operations :
    decode (.pinIn 48 1) = .ok (.pinIn 48 true) ∧ decode (.announce 255 0 (some 0x00010002)) =
      .ok (.announce 255 false (some 0x00010002)) ∧ decode (.advance 512000) = .ok (.advance 512000) ∧
    decode (.fireDuty 7) = .ok (.fireDuty 7) ∧ decode (.fireMcmp 2 1) = .ok (.fireMcmp 2 1) ∧
    decode (.fireStrm 3) = .ok (.fireStrm 3) ∧ decode .reset = .ok .reset := by decide +kernel

/-- What is no operation of the block (20_memory.md R61, R64). -/
theorem test_decode_refuses :
    decode (.busRead .gpio 0x002 32) = .error .misaligned ∧ decode (.busWrite .duty 0x000 16 0) = .error .notAWord ∧
    decode (.busRead .strm 0x1000 32) = .error .beyondWindow ∧ decode (.pinIn 49 0) = .error .noSuchPin ∧
    decode (.pinIn 0 2) = .error .notALevel ∧ decode (.announce 256 0 none) = .error .noSuchSignal ∧
    decode (.fireDuty 8) = .error .noSuchToken ∧ decodeTableWord 16 0x8000 = none := by decide +kernel

/-! One step each. -/

/-- The state an operation leads to. -/
def next? (i : Instr) (s : State) : Option State :=
  match exec i s with
  | .next t => some t
  | .fault _ => none
  | .refused _ => none

/-- The word a bus read answers. -/
def word? (i : Instr) (s : State) : Option Word := (next? i s).bind State.busData

/-- The block after reset with another `GPIO` state. -/
def onGpio (f : Gpio → Gpio) : State := State.reset.withGpio (f Gpio.atReset)

/-- The pin vector with pin `p` at 1. -/
def pin (p : Nat) : BitVec 49 := BitVec.twoPow 49 p

/-- The latches of the example of 41_interrupt_latch.md R144, in both contexts. -/
def latched : State := onGpio fun g => { g with ctxA := ⟨pin 40 ||| pin 5, pin 40⟩, ctxB := ⟨pin 40 ||| pin 5, pin 5⟩ }

/-- R144's example, context A. -/
theorem test_read_latch_words_a :
    word? .rGpioARawLo latched = some 0x20 ∧ word? .rGpioARawHi latched = some 0x100 ∧
    word? .rGpioAStatusLo latched = some 0 ∧ word? .rGpioAStatusHi latched = some 0x100 ∧
    word? .rGpioAEnableLo latched = some 0 ∧ word? .rGpioAEnableHi latched = some 0x100 := by decide +kernel

/-- R144 for context B with enable 0x20. -/
theorem test_read_latch_words_b :
    word? .rGpioBRawLo latched = some 0x20 ∧ word? .rGpioBRawHi latched = some 0x100 ∧
    word? .rGpioBStatusLo latched = some 0x20 ∧ word? .rGpioBStatusHi latched = some 0 ∧
    word? .rGpioBEnableLo latched = some 0x20 ∧ word? .rGpioBEnableHi latched = some 0 := by decide +kernel

/-- 42_gpio_trigger.md R170: the level words. -/
theorem test_read_levels :
    word? .rGpioLevelLo (onGpio fun g => { g with level := pin 48 ||| pin 5 }) = some 0x20 ∧
    word? .rGpioLevelHi (onGpio fun g => { g with level := pin 48 ||| pin 5 }) = some 0x10000 := by decide +kernel

/-- R167's example: pin 0 rising latches, pin 1 falling does not. -/
theorem test_write_level_lo :
    (next? (.wGpioLevelLo 0x3) (onGpio fun g => { g with trig := (g.trig.set 0 1).set 1 2 })).map
      (fun t => (t.gpio.level, t.gpio.ctxA.raw, t.gpio.ctxB.raw)) = some (3, 1, 1) := by decide +kernel

/-- R168's example: pin 48 of level type latches in both contexts. -/
theorem test_write_level_hi :
    (next? (.wGpioLevelHi 0x10000) (onGpio fun g => { g with trig := g.trig.set 48 5 })).map
      (fun t => (t.gpio.level, t.gpio.ctxA.raw, t.gpio.ctxB.raw)) = some (pin 48, pin 48, pin 48) := by decide +kernel

/-- R142's example: enabling a raised bit raises the line at once. -/
theorem test_write_a_enable_lo :
    (next? (.wGpioAEnableLo 0x20) (onGpio fun g => { g with ctxA := ⟨pin 5, 0⟩ })).map
      (fun t => (t.gpio.ctxA.enable, t.gpio.ctxB.enable, t.gpioIrq)) = some (pin 5, 0, true) := by decide +kernel

/-- R142: the other enable words; bits 31:17 of a `_HI` word are ignored. -/
theorem test_write_other_enables :
    (next? (.wGpioAEnableHi 0xFFFF0001) State.reset).map (fun t => t.gpio.ctxA.enable) = some (pin 48 ||| pin 32) ∧
    (next? (.wGpioBEnableLo 0x80000001) State.reset).map (fun t => t.gpio.ctxB.enable) = some (pin 31 ||| pin 0) ∧
    (next? (.wGpioBEnableHi 0x1) State.reset).map (fun t => (t.gpio.ctxA.enable, t.gpio.ctxB.enable)) =
      some (0, pin 32) := by decide +kernel

/-- R140's example: pin 5 of type level-high at level 1 stays raised; the other named pin clears. -/
theorem test_write_a_clear_lo :
    (next? (.wGpioAClearLo 0x28) (onGpio fun g =>
      { g with level := pin 5, trig := g.trig.set 5 5, ctxA := ⟨pin 5 ||| pin 3, 0⟩, ctxB := ⟨pin 3, 0⟩ })).map
      (fun t => (t.gpio.ctxA.raw, t.gpio.ctxB.raw)) = some (pin 5, pin 3) := by decide +kernel

/-- R143: each clear acts on its own context and half. -/
theorem test_write_other_clears :
    (next? (.wGpioAClearHi 0x100) latched).map (fun t => (t.gpio.ctxA.raw, t.gpio.ctxB.raw)) =
      some (pin 5, pin 40 ||| pin 5) ∧
    (next? (.wGpioBClearLo 0x20) latched).map (fun t => (t.gpio.ctxA.raw, t.gpio.ctxB.raw)) =
      some (pin 40 ||| pin 5, pin 40) ∧
    (next? (.wGpioBClearHi 0x1FF) latched).map (fun t => t.gpio.ctxB.raw) = some (pin 5) := by decide +kernel

/-- 40_bus_dispatch.md R124: dropped writes of the latch words, zero reads of the clear words. -/
theorem test_access_rights :
    (next? (.wGpioARawLo 0) latched).map (fun t => t.gpio.ctxA.raw) = some (pin 40 ||| pin 5) ∧
    (next? (.wGpioBStatusHi 0xFFFFFFFF) latched).map (fun t => t.gpio.ctxB.raw) = some (pin 40 ||| pin 5) ∧
    word? .rGpioAClearLo latched = some 0 ∧ word? .rGpioBClearHi latched = some 0 ∧
    (next? (.wDutyIntRaw 0xFF) State.reset).map (fun t => t.duty.latch.raw) = some 0 ∧
    word? .rStrmIntClear State.reset = some 0 := by decide +kernel

/-- R169's example, on a pin already high: nothing latches. -/
theorem test_write_pin_cfg :
    (next? (.wGpioPinCfg 5 0xFFFFFFED) (onGpio fun g => { g with level := pin 5 })).map
      (fun t => (t.gpio.trig.get 5, t.gpio.ctxA.enable, t.gpio.ctxB.enable, t.gpio.ctxA.raw)) =
      some (5, pin 5, 0, 0) := by decide +kernel

/-- R170: `PINp_CFG` reads {ENA_B, ENA_A, TRIG}. -/
theorem test_read_pin_cfg :
    word? (.rGpioPinCfg 5) (onGpio fun g => { g with trig := g.trig.set 5 5, ctxA := ⟨0, pin 5⟩ }) = some 0x0D ∧
    word? (.rGpioPinCfg 48) (onGpio fun g => { g with ctxB := ⟨0, pin 48⟩ }) = some 0x10 := by decide +kernel

/-- 43_gpio_crossbar.md R186's example, and the reset word of R188. -/
theorem test_outsel :
    (next? (.wGpioOutsel 12 0x40) State.reset).map (fun t => (t.gpio.outsel.get 12, t.trace)) =
      some (⟨64, false, false⟩, []) ∧ word? (.rGpioOutsel 0) State.reset = some 0x100 := by decide +kernel

/-- R187's and R193's example: pin 5, inverted, to input signal 3; and the reset word of R188. -/
theorem test_insel :
    (next? (.wGpioInsel 3 0x45) State.reset).map (fun t => (t.gpio.insel.get 3, t.inSignal 3)) =
      some (⟨5, true, false, false⟩, true) ∧ word? (.rGpioInsel 255) State.reset = some 0x80 := by decide +kernel

/-- 42_gpio_trigger.md R166's example: a rising edge on pin 7 latches in both contexts; a repeated level does nothing. -/
theorem test_pin_in :
    (next? (.pinIn 7 true) (onGpio fun g => { g with trig := g.trig.set 7 1 })).map
      (fun t => (t.gpio.level, t.gpio.ctxA.raw, t.gpio.ctxB.raw)) = some (pin 7, pin 7, pin 7) ∧
    (next? (.pinIn 7 true) (onGpio fun g => { g with trig := g.trig.set 7 5, level := pin 7 })).map
      (fun t => t.gpio.ctxA.raw) = some 0 := by decide +kernel

/-- 43_gpio_crossbar.md R190's example: two bound pins, ascending; a forced pin gets nothing. -/
theorem test_announce :
    (next? (.announce 64 true none) (onGpio fun g =>
      { g with outsel := ((g.outsel.set 9 ⟨64, false, false⟩).set 2 ⟨64, false, false⟩).set 5 ⟨64, true, true⟩ })).map
      (fun t => t.trace) = some [.pinOut 2 true none, .pinOut 9 true none] := by decide +kernel

/-- 40_bus_dispatch.md R122, R123: the examples. -/
theorem test_unmapped :
    word? (.rUnmapped .duty 0x0D0) latched = some 0 ∧
    (next? (.wUnmapped .mcmp 0x00C 0xFFFFFFFF) State.reset).map (fun t => t.mcmp) = some Mcmp.atReset := by decide +kernel

/-! The duty engine. -/

/-- The block after reset with channel 0 of `DUTY` as given. -/
def onDuty (c : DutyCh) : State := State.reset.setDutyCh 0 c

/-- The channel of Scenario A (44_duty_timer.md R210): resolution 10, duty 512, divider 1, clock 0. -/
def scenA : DutyCh := { DutyCh.atReset with res := 10, div := 1, en := true, duty := 512, running := true, phase := true }

/-- Scenario A started at time 0, at time `t`. -/
def scenAt (c : DutyCh) (t d : Nat) : State := ((onDuty c).withSched (Sched.empty.set (.duty 0) (some d))).withNow t

/-- R216's example. -/
theorem test_write_duty_conf :
    (next? (.wDutyChConf 0 0x8000004A) (onDuty { DutyCh.atReset with duty := 512 })).map
      (fun t => (t.dutyCh 0, t.sched.get (.duty 0))) = some (scenA, some 512000) := by decide +kernel

/-- R216: `EN` 1 with `RES` 0 is stored and stays INERT. -/
theorem test_write_duty_conf_inert :
    (next? (.wDutyChConf 0 0x80000040) State.reset).map
      (fun t => ((t.dutyCh 0).en, (t.dutyCh 0).running, t.sched.get (.duty 0))) = some (true, false, none) := by decide +kernel

/-- R217's example: re-armed at time 100000 to 356000. -/
theorem test_write_duty_duty :
    (next? (.wDutyChDuty 0 256) (scenAt scenA 100000 512000)).map (fun t => (t.dutyCh 0, t.sched.get (.duty 0))) =
      some ({ scenA with duty := 256 }, some 356000) := by decide +kernel

/-- R218's example. -/
theorem test_write_duty_fade :
    (next? (.wDutyChFade 0 0x40300802) State.reset).map (fun t => t.dutyCh 0) =
      some { DutyCh.atReset with step := 2, cycles := 2, num := 3, dir := true, remain := 3 } := by decide +kernel

/-- R220, R219: the channel's words; 51200 / 1023 = 50. -/
theorem test_read_duty_words :
    word? (.rDutyChConf 0) (onDuty scenA) = some 0x8000004A ∧ word? (.rDutyChDuty 0) (onDuty scenA) = some 512 ∧
    word? (.rDutyChFade 0) (onDuty { scenA with step := 2, cycles := 2, num := 3, dir := true, remain := 1 }) =
      some 0x40300802 ∧
    word? (.rDutyChPct 0) (onDuty scenA) = some 50 ∧
    word? (.rDutyChPct 0) (onDuty { scenA with duty := 0xFFFFFFFF }) = some 100 := by decide +kernel

/-- R124: `CHn_PCT` is read-only. -/
theorem test_write_duty_pct :
    (next? (.wDutyChPct 0 7) (onDuty scenA)).map (fun t => t.dutyCh 0) = some scenA := by decide +kernel

/-- R145's example, and R146's. -/
theorem test_write_duty_int :
    (next? (.wDutyIntClear 0x01) (State.reset.withDuty { Duty.atReset with latch := ⟨0x05, 0⟩ })).map
      (fun t => t.duty.latch.raw) = some 0x04 ∧
    (next? (.wDutyIntEnable 0xFFF) State.reset).map (fun t => t.duty.latch.enable) = some 0xFF := by decide +kernel

/-- R147: the latch words. -/
theorem test_read_duty_int :
    word? .rDutyIntRaw (State.reset.withDuty { Duty.atReset with latch := ⟨0x05, 0x04⟩ }) = some 0x05 ∧
    word? .rDutyIntStatus (State.reset.withDuty { Duty.atReset with latch := ⟨0x05, 0x06⟩ }) = some 0x04 ∧
    word? .rDutyIntEnable (State.reset.withDuty { Duty.atReset with latch := ⟨0x05, 0x06⟩ }) = some 0x06 := by decide +kernel

/-- R214's example: at 512000 the phase goes LOW and the next deadline is 1024000. -/
theorem test_fire_duty :
    (next? (.fireDuty 0) (scenAt scenA 512000 512000)).map (fun t => (t.dutyCh 0, t.sched.get (.duty 0))) =
      some ({ scenA with phase := false }, some 1024000) := by decide +kernel

/-- Scenario A with one step of an upward fade left, from duty 1020 by 9, and its enable bit set. -/
def lastStep : State :=
  let c : DutyCh := { scenA with duty := 1020, step := 9, cycles := 1, num := 3, dir := true, remain := 1 }
  (scenAt c 512000 512000).withDuty { (scenAt c 512000 512000).duty with latch := ⟨0, 1⟩ }

/-- R215: the last step of a fade saturates at 2^10 and latches fade complete if enabled. -/
theorem test_fire_duty_fade_complete :
    (next? (.fireDuty 0) lastStep).map
      (fun t => ((t.dutyCh 0).duty, (t.dutyCh 0).remain, t.duty.latch.raw)) = some (1024, 0, 1) := by decide +kernel

/-! The compare engine. -/

/-- The block after reset with timer 0 as {1, 1000} (45_multi_timer_compare.md R250). -/
def onMcmp : State := State.reset.withMcmp { Mcmp.atReset with tmr := Mcmp.atReset.tmr.set 0 ⟨1, 1000⟩ }

/-- R243, 40_bus_dispatch.md R125: bits 31:24 are reserved. -/
theorem test_write_tmr :
    (next? (.wMcmpTmrCfg 0 0xFF0003E8) State.reset).map (fun t => t.mcmp.tmr.get 0) = some ⟨0xE8, 3⟩ ∧
    word? (.rMcmpTmrCfg 0) onMcmp = some 0x0003E801 := by decide +kernel

/-- R244's example. -/
theorem test_write_mode :
    (next? (.wMcmpOpMode 1 0x3) State.reset).map (fun t => t.mcmpOp 1) = some ⟨0, 0, true, true⟩ ∧
    word? (.rMcmpOpMode 2) (State.reset.setMcmpOp 2 ⟨0, 0, false, true⟩) = some 2 := by decide +kernel

/-- R250's example; a value already held arms nothing. -/
theorem test_write_cmpa :
    (next? (.wMcmpOpCmpa 0 250) onMcmp).map (fun t => (t.mcmpOut 0 0, t.sched.get (.mcmp 0 0), (t.mcmpOp 0).cmpa)) =
      some (⟨true, true, .a⟩, some 250000, 250) ∧
    (next? (.wMcmpOpCmpa 0 0x000100FA) (onMcmp.setMcmpOp 0 ⟨250, 0, false, false⟩)).map
      (fun t => t.sched.get (.mcmp 0 0)) = some none := by decide +kernel

/-- R251's example; with `b_swap` the same compare drives output 0 (R241). -/
theorem test_write_cmpb :
    (next? (.wMcmpOpCmpb 0 500) onMcmp).map (fun t => (t.mcmpOut 0 1, t.sched.get (.mcmp 0 1), (t.mcmpOp 0).cmpb)) =
      some (⟨true, true, .b⟩, some 500000, 500) ∧
    (next? (.wMcmpOpCmpb 0 500) (onMcmp.setMcmpOp 0 ⟨0, 0, false, true⟩)).map
      (fun t => (t.mcmpOut 0 0, t.sched.get (.mcmp 0 1))) = some (⟨true, true, .b⟩, none) := by decide +kernel

/-- R249: the compare words. -/
theorem test_read_cmp :
    word? (.rMcmpOpCmpa 1) (State.reset.setMcmpOp 1 ⟨0xFFFF, 2, false, false⟩) = some 0xFFFF ∧
    word? (.rMcmpOpCmpb 1) (State.reset.setMcmpOp 1 ⟨0xFFFF, 2, false, false⟩) = some 2 := by decide +kernel

/-- The example of R250 at time `t` with output (0,0) HIGH. -/
def mcmpAt (t d : Nat) : State :=
  (((onMcmp.setMcmpOp 0 ⟨250, 0, false, false⟩).setMcmpOut 0 0 ⟨true, true, .a⟩).withSched
    (Sched.empty.set (.mcmp 0 0) (some d))).withNow t

/-- R248's example: LOW at 250000, the next deadline 1000000. -/
theorem test_fire_mcmp :
    (next? (.fireMcmp 0 0) (mcmpAt 250000 250000)).map (fun t => (t.mcmpOut 0 0, t.sched.get (.mcmp 0 0))) =
      some (⟨true, false, .a⟩, some 1000000) := by decide +kernel

/-- R248: with the timer written to 0 the output goes INERT. -/
theorem test_fire_mcmp_inert :
    (next? (.fireMcmp 0 0) ((mcmpAt 250000 250000).withMcmp
      { (mcmpAt 250000 250000).mcmp with tmr := Mcmp.atReset.tmr })).map
      (fun t => (t.mcmpOut 0 0, t.sched.get (.mcmp 0 0))) = some (⟨false, false, .a⟩, none) := by decide +kernel

/-! The streaming engine. -/

/-- The ring of Scenario B (46_stream_waveform.md R290). -/
def ringB : Vector Word 64 := (StrmCh.atReset.ring.set 0 0x00648064).set 1 0x00328032

/-- The block after reset with channel 0 of `STRM` and the raw bits as given. -/
def onStrm (c : StrmCh) (raw : BitVec 16) : State :=
  (State.reset.withStrm { Strm.atReset with latch := ⟨raw, 0⟩ }).setStrmCh 0 c

/-- The channel of Scenario B after its first burst. -/
def strmB : StrmCh := { StrmCh.atReset with div := 2, burst := 2, en := true, ring := ringB, running := true, cursor := 2, sent := 2 }

/-- R285's example: two transfers, threshold latched, deadline 4000. -/
theorem test_write_strm_conf :
    (next? (.wStrmChConf 0 0x80000202) (onStrm { StrmCh.atReset with ring := ringB } 0)).map
      (fun t => (t.strmCh 0, t.strm.latch.raw, t.sched.get (.strm 0), t.trace)) =
      some (strmB, 0x100, some 4000,
        [.sinkXfer 0 ⟨true, 200, false, 0 + 200⟩, .sinkXfer 0 ⟨true, 100, false, 100⟩]) := by decide +kernel

/-- R285: `EN` 0 stops a running channel and leaves its cursor and latch bits. -/
theorem test_write_strm_conf_stop :
    (next? (.wStrmChConf 0 0x00000202) (onStrm strmB 0x100)).map (fun t => (t.strmCh 0, t.strm.latch.raw)) =
      some ({ strmB with running := false, en := false }, 0x100) := by decide +kernel

/-- R286's example; R289: the ring word and the channel word read back. -/
theorem test_ring_and_reads :
    (next? (.wStrmRam 0 0 0x00648064) State.reset).map (fun t => (t.strmCh 0).ring.get 0) = some 0x00648064 ∧
    word? (.rStrmRam 0 1) (onStrm strmB 0) = some 0x00328032 ∧
    word? (.rStrmChConf 0) (onStrm strmB 0) = some 0x80000202 := by decide +kernel

/-- R148's example with unimplemented bits set; R149: the latch words. -/
theorem test_strm_int :
    (next? (.wStrmIntEnable 0xFFFFF1F1) State.reset).map (fun t => t.strm.latch.enable) = some 0x0101 ∧
    word? .rStrmIntRaw (onStrm strmB 0x0101) = some 0x0101 ∧ word? .rStrmIntStatus (onStrm strmB 0x0101) = some 0 ∧
    word? .rStrmIntEnable (onStrm strmB 0x0101) = some 0 := by decide +kernel

/-- R287: a clear with no emission pending only clears; with one pending the tick runs inside the write. -/
theorem test_strm_clear :
    (next? (.wStrmIntClear 0x100) (onStrm strmB 0x100)).map (fun t => (t.strmCh 0, t.strm.latch.raw)) = some (strmB, 0) ∧
    (next? (.wStrmIntClear 0x100) (onStrm { strmB with pending := true } 0x100)).map
      (fun t => (t.strmCh 0, t.strm.latch.raw)) =
      some ({ strmB with running := false, en := false, sent := 0 }, 1) := by decide +kernel

/-- Scenario B at its deadline. -/
def strmAt (raw : BitVec 16) : State :=
  ((onStrm strmB raw).withSched (Sched.empty.set (.strm 0) (some 4000))).withNow 4000

/-- R290: word 2 is the sentinel: completion latches, the channel disables itself, sent is 0. -/
theorem test_fire_strm :
    (next? (.fireStrm 0) (strmAt 0)).map (fun t => (t.strmCh 0, t.strm.latch.raw, t.sched.get (.strm 0))) =
      some ({ strmB with running := false, en := false, sent := 0 }, 1, none) := by decide +kernel

/-- R288: with threshold still latched the tick is deferred. -/
theorem test_fire_strm_blocked :
    (next? (.fireStrm 0) (strmAt 0x100)).map (fun t => (t.strmCh 0, t.strm.latch.raw, t.sched.get (.strm 0))) =
      some ({ strmB with pending := true }, 0x100, none) := by decide +kernel

/-! Clock and reset. -/

/-- 47_virtual_clock.md R302: up to a deadline and not past it. -/
theorem test_advance :
    (next? (.advance 512000) (scenAt scenA 0 512000)).map (fun t => t.now) = some 512000 ∧
    next? (.advance 512001) (scenAt scenA 0 512000) = none ∧ next? (.advance 4) (State.reset.withNow 5) = none := by
  decide +kernel

/-- 70_reset_and_hazards.md R350's example. -/
theorem test_reset :
    (next? .reset (scenAt scenA 7 512000)).map (fun t => (t.sched, t.dutyCh 0, t.now)) =
      some (Sched.empty, DutyCh.atReset, 7) := by decide +kernel

/-- A step decodes the stored word and runs it: the example of 43_gpio_crossbar.md R186. -/
theorem test_step_runs_the_word :
    (match step (State.reset.withFetchWord 48 (0x00000040 * 2 ^ 16 + 0b1_00_001000110000)) with
      | .next t => some (t.gpio.outsel.get 12, t.inbox)
      | .fault _ => none
      | .refused _ => none) = some (⟨64, false, false⟩, []) := by decide +kernel

/-- 20_memory.md R63: the bytes of `OUTSEL0` after reset, the lowest first. -/
theorem test_window_bytes :
    [State.reset.windowByte .gpio 0x200, State.reset.windowByte .gpio 0x201, State.reset.windowByte .gpio 0x202] =
      [0x00, 0x01, 0x00] := by decide +kernel

/-- 30_encoding.md R107: the expansions of the pseudo-operations. -/
theorem test_pseudo_operations :
    pinCfgOp 5 5 true false = .wGpioPinCfg 5 0x0D ∧ outBindOp 2 64 = .wGpioOutsel 2 0x40 ∧
    outForceOp 3 true = .wGpioOutsel 3 0x300 ∧ inBindOp 3 5 true = .wGpioInsel 3 0x45 ∧
    inForceOp 4 true = .wGpioInsel 4 0x180 := by decide +kernel

/-! Witnesses: a concrete state and operands that meet the hypotheses of each statement that has some. -/

/-- `DecodeEncodeRoundTrip`, `WrongDirectionAndUnmappedAccessesAreHarmless` (every clause, at ends of the ranges). -/
theorem test_witness_unmapped :
    Instr.wf (.rUnmapped .mcmp 0x04C) = true ∧ Instr.wf (.wStrmRam 3 63 0) = true ∧
    isDroppedWrite (.wDutyChPct 7 1) = true ∧ isDroppedWrite (.wUnmapped .gpio 0x008 1) = true ∧
    Window.gpio.unmappedWord 0x008 = true ∧ Window.gpio.unmappedWord 0xFFC = true ∧
    Window.duty.unmappedWord 0x0D0 = true ∧ Window.mcmp.unmappedWord 0x00C = true ∧
    Window.strm.unmappedWord 0x800 = true := by decide

/-- `DecodedRequestsAreEncodings`, `ReadsAnswerAWordAndChangeNothing`. -/
theorem test_witness_decodes :
    decode (.busRead .gpio 0x3C 32) = .ok .rGpioBStatusHi ∧ isRead .rGpioBStatusHi = true ∧
    isRead (.rUnmapped .strm 0x800) = true := by decide +kernel

/-- `StepRunsTheDecodedOperation`, each clause. -/
theorem test_witness_step :
    (State.reset.withInbox [.reset]).inbox = .reset :: [] ∧ decode .reset = .ok .reset ∧
    decode (.pinIn 49 1) = .error .noSuchPin ∧ State.reset.inbox = [] ∧
    decodeTableWord 16 0b0_00_000000000000 = some .rGpioLevelLo := by decide +kernel

/-- `OnAndOffAddUpToThePeriod`: times exist, for a duty of 0, of 2^10 and in between, and for a compare value. -/
theorem test_witness_times :
    dutyTimes Params.reference scenA = some (512000, 512000) ∧
    dutyTimes Params.reference { scenA with duty := 0 } = some (1, 1023999) ∧
    dutyTimes Params.reference { scenA with duty := 1024 } = some (1023999, 1) ∧
    (mcmpAt 0 0).mcmpTimes 0 .a = some (250000, 750000) := by decide +kernel

/-- `DutyWriteReArmsARunningChannel`, both clauses. -/
theorem test_witness_duty_write :
    ((scenAt scenA 0 512000).dutyCh 0).running = true ∧ (State.reset.dutyCh 0).running = false := by decide +kernel

/-- `DutyFireTogglesFadesAndReArms`, `CompareFireTogglesAndReArms`, `StreamFireRunsOneTick`, `FireRunsExactlyWhenDue`: a
token is due; and one that is not. -/
theorem test_witness_due :
    (scenAt scenA 512000 512000).sched.get (.duty 0) = some (scenAt scenA 512000 512000).now ∧
    (mcmpAt 250000 250000).sched.get (.mcmp 0 0) = some (mcmpAt 250000 250000).now ∧
    (strmAt 0x100).sched.get (.strm 0) = some (strmAt 0x100).now ∧
    State.reset.sched.get (.strm 0) ≠ some State.reset.now := by decide +kernel

/-- `DutyFireTogglesFadesAndReArms`: a fade that ends at the fire, one that does not, and an inert channel. -/
theorem test_witness_duty_fire_branches :
    fadeEnds { scenA with step := 1, cycles := 1, remain := 1 } ∧ ¬ fadeEnds { scenA with cycles := 2, remain := 1 } ∧
    dutyTimes Params.reference { scenA with div := 0 } = none := by decide +kernel

/-- `DutyPeriodsDoNotDrift`: both ways of no fade, and other deadlines no earlier than the end of the one period. -/
theorem test_witness_no_drift :
    ((scenAt scenA 0 512000).dutyCh 0).phase = true ∧
    dutyTimes (scenAt scenA 0 512000).params ((scenAt scenA 0 512000).dutyCh 0) = some (512000, 512000) ∧
    NoFade scenA ∧ NoFade { scenA with remain := 3 } ∧
    (scenAt scenA 0 512000).sched.get (.duty 0) = some ((scenAt scenA 0 512000).now + 512000) ∧
    (Token.all.all fun tok => decide (tok = .duty 0) || (scenAt scenA 0 512000).sched.get tok == none) = true := by
  unfold NoFade
  decide +kernel

/-- `DutyPeriodsDoNotDrift`, 44_duty_timer.md R210: Scenario A's second HIGH phase begins at 1024000. -/
theorem test_two_toggles :
    (dutyToggles 0 2 (scenAt scenA 0 512000)).map (fun t => (t.now, t.sched.get (.duty 0))) =
      some (1024000, some 1536000) := by decide +kernel

/-- Scenario A in its LOW phase, due at 1024000. -/
def scenLow : State := scenAt { scenA with phase := false } 1024000 1024000

/-- `DutyPhaseStaysLocked`: a HIGH and a LOW channel locked to time 0, an operation that keeps it, and a start. -/
theorem test_witness_phase_locked :
    PhaseLocked 0 0 1024000 (scenAt scenA 512000 512000) ∧ PhaseLocked 0 0 1024000 scenLow ∧
    (scenLow.dutyCh 0).phase = false ∧ scenLow.sched.get (.duty 0) = some scenLow.now ∧
    ¬ Reconfigures 0 (.fireDuty 0) ∧ ¬ Reconfigures 0 (.wDutyChConf 1 0) ∧
    (step (scenLow.withInbox [.fireDuty 0])) = exec (.fireDuty 0) scenLow ∧
    (next? (.fireDuty 0) scenLow).isSome = true ∧
    (0x8000004A : Word).getLsbD 31 = true ∧
    dutyTimes State.reset.params (setDutyConf { DutyCh.atReset with duty := 512 } 0x8000004A) = some (512000, 512000) := by
  refine ⟨⟨.inl (by decide +kernel), 512000, 512000, 0, by decide +kernel, by decide, by decide +kernel⟩,
    ⟨.inl (by decide +kernel), 512000, 512000, 0, by decide +kernel, by decide, by decide +kernel⟩,
    by decide +kernel, by decide +kernel, ?_, ?_, rfl, by decide +kernel, by decide +kernel, by decide +kernel⟩
  · rintro (⟨_, h⟩ | ⟨_, h⟩ | ⟨_, h⟩ | h) <;> cases h
  · rintro (⟨_, h⟩ | ⟨_, h⟩ | ⟨_, h⟩ | h) <;> simp at h

/-- `CompareWriteArmsTheMappedOutput`: a value of 0, an unchanged one, an inert timer and a running one. -/
theorem test_witness_compare_write :
    BitVec.ofNat 16 (0x00010000 : Word).toNat = 0 ∧ BitVec.ofNat 16 (0x000100FA : Word).toNat = (250 : BitVec 16) ∧
    (State.reset.mcmp.tmr.get 0).presc.toNat = 0 ∧ (onMcmp.mcmp.tmr.get 0).presc.toNat = 1 := by decide +kernel

/-- `StreamConfWriteRestartsTheChannel`: `EN` 0, `EN` 1 runnable and `EN` 1 not runnable. -/
theorem test_witness_stream_conf :
    (0x00000202 : Word).getLsbD 31 = false ∧ (0x80000202 : Word).getLsbD 31 = true ∧
    runnable Params.reference strmB = true ∧ runnable Params.reference { strmB with div := 0 } = false := by decide +kernel

/-- `StreamClearResumesDeferredEmissions`, `StreamFireRunsOneTick`: running with an emission owed; a first word that is a
sentinel and one that is not; blocked and not. -/
theorem test_witness_stream_tick :
    ((onStrm { strmB with pending := true } 0x100).strmCh 0).pending = true ∧ isSentinel 0x80008000 = true ∧
    isSentinel 0x00008001 = false ∧ (onStrm strmB 0x100).strmBlocked 0 = true ∧
    (onStrm strmB 0x002).strmBlocked 0 = false := by decide +kernel

/-- `BlockedChannelsEmitNothing`: a blocked channel, and an operation on it that completes. -/
theorem test_witness_blocked :
    (strmAt 0x100).strmBlocked 0 = true ∧ (next? (.fireStrm 0) (strmAt 0x100)).isSome = true := by decide +kernel

/-- `SinksChangeOnlyTheirEventsAndBasesNothing`, `TraceIsAppendedToAndNeverRead`: an operation that completes and emits. -/
theorem test_witness_emits :
    (next? (.wStrmChConf 0 0x80000202) (onStrm { StrmCh.atReset with ring := ringB } 0)).map (fun t => t.trace.length) =
      some 2 := by decide +kernel

/-- `AdvanceNeverPassesADeadline`: at `now`, at the deadline, and, not enabled, past it and before `now`. -/
theorem test_witness_advance :
    (scenAt scenA 7 512000).advanceEnabled 7 = true ∧ (scenAt scenA 7 512000).advanceEnabled 512000 = true ∧
    (scenAt scenA 7 512000).advanceEnabled 512001 = false ∧ (scenAt scenA 7 512000).advanceEnabled 6 = false := by
  decide +kernel

/-- Scenario A and a stream channel, both due at 512000. -/
def bothDue : State :=
  ((onStrm strmB 0).setDutyCh 0 scenA).withSched
    ((Sched.empty.set (.duty 0) (some 512000)).set (.strm 0) (some 512000)) |>.withNow 512000

/-- `DueCallbacksCommute`. -/
theorem test_witness_two_due :
    Token.duty 0 ≠ Token.strm 0 ∧ bothDue.sched.get (.duty 0) = some bothDue.now ∧
    bothDue.sched.get (.strm 0) = some bothDue.now := by decide +kernel

/-- `EveryStepKeepsTheInvariant`, `NewDeadlinesAreStrictlyLater`: a state of the invariant with two running channels, from
which a step and an operation complete. -/
theorem test_witness_invariant :
    Inv (bothDue.withInbox [.fireDuty 0]) ∧ (next? (.fireDuty 0) (bothDue.withInbox [.fireDuty 0])).isSome = true ∧
    (match step (bothDue.withInbox [.fireDuty 0]) with
      | .next _ => true
      | .fault _ => false
      | .refused _ => false) = true :=
  ⟨inv_of_check (by decide +kernel), by decide +kernel, by decide +kernel⟩

/-- `EveryEnabledOperationCompletes`: an enabled `FIRE` and an enabled `ADVANCE`. -/
theorem test_witness_enabled : Enabled (.fireDuty 0) bothDue ∧ Enabled (.advance 5) State.reset := by
  refine ⟨⟨fun t h => ?_, fun tok h => ?_⟩, ⟨fun t h => ?_, fun tok h => ?_⟩⟩
  · cases h
  · cases tok <;> cases h
    decide +kernel
  · cases h
    exact ⟨by decide, fun tok d hd => by rw [show State.reset.sched = Sched.empty from rfl, Sched.get_empty] at hd; cases hd⟩
  · cases tok <;> cases h

/-- `RunLeavesNothingDue`: Scenario A run to 600000 in two rounds. -/
theorem test_witness_run :
    ((scenAt scenA 0 512000).runTo 600000 3).map (fun t => (t.now, t.sched.get (.duty 0))) = some (600000, some 1024000) := by
  decide +kernel

/-- `OperationsStayInTheirPeripheral`: operations of different reach that complete. -/
theorem test_witness_reach :
    reach (.fireDuty 0) = .duty 0 ∧ reach (.wGpioLevelLo 3) = .gpio ∧ reach (.wDutyIntClear 1) = .dutyLatch ∧
    reach (.wMcmpOpCmpa 0 250) = .mcmp ∧ reach (.wStrmIntClear 1) = .strm ∧ reach (.advance 5) = .clock ∧
    reach (.announce 3 true none) = .nothing ∧ reach .reset = .everything ∧
    (next? (.wMcmpOpCmpa 0 250) bothDue).isSome = true := by decide +kernel

/-- `RawBitsStayUntilClearedOrReset`: raised bits of each group before an operation that completes. -/
theorem test_witness_raised :
    (latched.gpio.latch .a).raw.getLsbD 40 = true ∧ (next? (.wGpioAClearHi 0x100) latched).isSome = true ∧
    (State.reset.withDuty { Duty.atReset with latch := ⟨0x05, 0⟩ }).duty.latch.raw.getLsbD 2 = true ∧
    (onStrm strmB 0x100).strm.latch.raw.getLsbD 8 = true := by decide +kernel

/-- `RawBitsAreSetOnlyByTheirSources`, `LevelsChangeOnlyThroughSetLevel`: a bit newly raised by a level that changed; by
a fade that completes; by a tick. -/
theorem test_witness_newly_raised :
    (next? (.pinIn 7 true) (onGpio fun g => { g with trig := g.trig.set 7 1 })).map
      (fun t => (t.gpio.ctxB.raw.getLsbD 7, t.gpio.level.getLsbD 7)) = some (true, true) ∧
    (next? (.fireDuty 0) ((scenAt { scenA with cycles := 1, remain := 1 } 5 5).withDuty
      { (scenAt { scenA with cycles := 1, remain := 1 } 5 5).duty with latch := ⟨0, 1⟩ })).map
      (fun t => t.duty.latch.raw) = some 1 ∧
    (next? (.fireStrm 0) (strmAt 0)).map (fun t => t.strm.latch.raw) = some 1 ∧
    (next? (.wStrmChConf 0 0x80000202) (onStrm { StrmCh.atReset with ring := ringB } 0)).map (fun t => t.strm.latch.raw) =
      some 0x100 ∧
    (next? (.wStrmIntClear 0x100) (onStrm { strmB with pending := true } 0x100)).map (fun t => t.strm.latch.raw) =
      some 1 := by decide +kernel

/-- `RepeatedWritesAreIdempotent`: a write of its list that completes, arms and is repeated. -/
theorem test_witness_repeated :
    Instr.wMcmpOpCmpa 0 250 ∈ [levelWrite true 250, .wMcmpOpCmpa 0 250] ∧
    ((next? (.wMcmpOpCmpa 0 250) onMcmp).bind (next? (.wMcmpOpCmpa 0 250))).map (fun t => t.sched.get (.mcmp 0 0)) =
      some (some 250000) ∧
    (0x00000202 : Word).getLsbD 31 = false ∧
    (next? (.wStrmChConf 0 0x00000202) (onStrm strmB 0x100)).isSome = true := by decide +kernel

end Sys2Proof.Tests
end

section
/-! PROOF. What an operation answers, class by class of what it reaches (20_memory.md R62): every one of them completes, and
only `ADVANCE` moves `now` (00_scope.md R11, 10_state.md R23). -/

namespace Sys2Proof.Machine

open Sys2Proof.Safety

/-! The procedures of the engines leave `now` as it is. -/

@[simp] theorem State.dutyPut_now (s : State) (n : DutyIx) (c : DutyCh) (d : Option Nat) (es : List Event) :
    (s.dutyPut n c d es).now = s.now := rfl

@[simp] theorem State.dutyStart_now (s : State) (n : DutyIx) : (s.dutyStart n).now = s.now := by
  rw [State.dutyStart_eq]
  cases dutyTimes s.params (s.dutyCh n) <;> rfl

@[simp] theorem State.dutyStop_now (s : State) (n : DutyIx) : (s.dutyStop n).now = s.now := by
  rw [State.dutyStop_eq, State.dutyPut_now]

@[simp] theorem State.dutyFire_now (s : State) (n : DutyIx) : (s.dutyFire n).now = s.now := by
  rw [State.dutyFire_eq]
  cases dutyTimes s.params (toggledCh (s.dutyCh n)) <;> rfl

@[simp] theorem State.mcmpPut_now (s : State) (o : OpIx) (k : OutIx) (c : OutCh) (d : Option Nat) (es : List Event) :
    (s.mcmpPut o k c d es).now = s.now := rfl

@[simp] theorem State.mcmpArm_now (s : State) (o : OpIx) (k : OutIx) (x : Cmp) : (s.mcmpArm o k x).now = s.now := by
  rw [State.mcmpArm_eq]
  cases s.mcmpTimes o x <;> rfl

@[simp] theorem State.mcmpFire_now (s : State) (o : OpIx) (k : OutIx) : (s.mcmpFire o k).now = s.now := by
  rw [State.mcmpFire_eq]
  cases s.mcmpTimes o (s.mcmpOut o k).src <;> rfl

@[simp] theorem State.strmBurst_now (s : State) (n : StrmIx) (k : Nat) : (s.strmBurst n k).now = s.now := by
  rcases s.strmTick_spec n k with ⟨j, _, _, _, he⟩ | ⟨_, he⟩ <;> rw [he] <;> rfl

@[simp] theorem State.drain_now (s : State) (n : StrmIx) : (s.drain n).now = s.now := by
  unfold State.drain
  split_ifs <;> simp

@[simp] theorem State.strmStop_now (s : State) (n : StrmIx) : (s.strmStop n).now = s.now := rfl

@[simp] theorem State.strmStart_now (s : State) (n : StrmIx) : (s.strmStart n).now = s.now := by
  unfold State.strmStart
  dsimp only
  split_ifs <;> simp

@[simp] theorem State.strmResume_now (s : State) (n : StrmIx) : (s.strmResume n).now = s.now := by
  unfold State.strmResume
  split_ifs <;> simp

@[simp] theorem State.foldl_strmResume_now (ns : List StrmIx) (s : State) :
    (ns.foldl State.strmResume s).now = s.now := by
  induction ns generalizing s with
  | nil => rfl
  | cons n ns ih => rw [List.foldl_cons, ih, State.strmResume_now]

/-! What an operation answers, by what it reaches. -/

/-- 40_bus_dispatch.md R120: a read answers a word. -/
theorem exec_of_isRead {i : Instr} (h : isRead i = true) (s : State) : ∃ w, exec i s = .next (s.respond w) := by
  cases i <;> cases h <;> exact ⟨_, rfl⟩

/-- 40_bus_dispatch.md R123, R124. -/
theorem exec_of_isDroppedWrite {i : Instr} (h : isDroppedWrite i = true) (s : State) : exec i s = .next s := by
  cases i <;> cases h <;> rfl

/-- 20_memory.md R62: what reaches nothing is a read, a dropped write or an announcement. -/
theorem cases_of_reach_nothing {i : Instr} (h : reach i = .nothing) :
    isRead i = true ∨ isDroppedWrite i = true ∨ ∃ sig level param, i = .announce sig level param := by
  cases i <;> cases h <;> simp [isRead, isDroppedWrite]

/-- 20_memory.md R62: an operation on the `GPIO` window or a pin event replaces the `GPIO` part alone. -/
theorem exec_of_reach_gpio {i : Instr} (h : reach i = .gpio) (s : State) : ∃ g, exec i s = .next (s.withGpio g) := by
  cases i <;> cases h <;> exact ⟨_, rfl⟩

/-- 41_interrupt_latch.md R145, R146: a write to the `DUTY` latch group replaces that group alone. -/
theorem exec_of_reach_dutyLatch {i : Instr} (h : reach i = .dutyLatch) (s : State) :
    ∃ l, exec i s = .next (s.withDuty { s.duty with latch := l }) := by
  cases i <;> cases h <;> exact ⟨_, rfl⟩

/-- 47_virtual_clock.md R302: `ADVANCE` where it is enabled. -/
theorem exec_advance_of_enabled {s : State} {t : Nat} (h : Enabled (.advance t) s) :
    exec (.advance t) s = .next (s.withNow t) :=
  if_pos ((s.advanceEnabled_iff t).mpr (h.1 t rfl))

/-- 47_virtual_clock.md R303, 44_duty_timer.md R214: `FIRE DUTY(n)` where it is enabled. -/
theorem exec_fireDuty_of_enabled {s : State} {n : DutyIx} (h : Enabled (.fireDuty n) s) :
    exec (.fireDuty n) s = .next (s.dutyFire n) :=
  if_pos ((s.due_iff _).mpr (h.2 (.duty n) rfl))

/-- 47_virtual_clock.md R303, 45_multi_timer_compare.md R248: `FIRE MCMP(o,k)` where it is enabled. -/
theorem exec_fireMcmp_of_enabled {s : State} {o : OpIx} {k : OutIx} (h : Enabled (.fireMcmp o k) s) :
    exec (.fireMcmp o k) s = .next (s.mcmpFire o k) :=
  if_pos ((s.due_iff _).mpr (h.2 (.mcmp o k) rfl))

/-- 47_virtual_clock.md R303, 46_stream_waveform.md R288: `FIRE STRM(n)` where it is enabled. -/
theorem exec_fireStrm_of_enabled {s : State} {n : StrmIx} (h : Enabled (.fireStrm n) s) :
    exec (.fireStrm n) s = .next ((s.cancel (.strm n)).drain n) :=
  if_pos ((s.due_iff _).mpr (h.2 (.strm n) rfl))

/-! Completion in zero virtual time. -/

/-- 00_scope.md R11: the operation completes from `s` and `now` is what it was. -/
def CompletesInstantly (i : Instr) (s : State) : Prop := ∃ t, exec i s = .next t ∧ t.now = s.now

theorem completesInstantly_of_reach_nothing {i : Instr} (h : reach i = .nothing) (s : State) :
    CompletesInstantly i s := by
  rcases cases_of_reach_nothing h with hr | hd | ⟨sig, level, param, rfl⟩
  · obtain ⟨w, he⟩ := exec_of_isRead hr s
    exact ⟨_, he, s.respond_now w⟩
  · exact ⟨s, exec_of_isDroppedWrite hd s, rfl⟩
  · exact ⟨_, rfl, s.announce_now sig.val level param⟩

theorem completesInstantly_of_reach_duty {i : Instr} {s : State} {n : DutyIx} (h : reach i = .duty n)
    (hen : Enabled i s) : CompletesInstantly i s := by
  match i, h with
  | .wDutyChConf m v, _ => exact ⟨_, rfl, by split_ifs <;> simp⟩
  | .wDutyChDuty m v, _ => exact ⟨_, rfl, by split_ifs <;> simp⟩
  | .wDutyChFade m v, _ => exact ⟨_, rfl, rfl⟩
  | .fireDuty m, _ => exact ⟨_, exec_fireDuty_of_enabled hen, s.dutyFire_now m⟩

theorem completesInstantly_of_reach_mcmp {i : Instr} {s : State} (h : reach i = .mcmp) (hen : Enabled i s) :
    CompletesInstantly i s := by
  match i, h with
  | .wMcmpTmrCfg t v, _ => exact ⟨_, rfl, rfl⟩
  | .wMcmpOpMode o v, _ => exact ⟨_, rfl, rfl⟩
  | .wMcmpOpCmpa o v, _ => exact ⟨_, rfl, by split_ifs <;> simp⟩
  | .wMcmpOpCmpb o v, _ => exact ⟨_, rfl, by split_ifs <;> simp⟩
  | .fireMcmp o k, _ => exact ⟨_, exec_fireMcmp_of_enabled hen, s.mcmpFire_now o k⟩

theorem completesInstantly_of_reach_strm {i : Instr} {s : State} (h : reach i = .strm) (hen : Enabled i s) :
    CompletesInstantly i s := by
  match i, h with
  | .wStrmChConf n v, _ => exact ⟨_, rfl, by split_ifs <;> simp⟩
  | .wStrmIntEnable v, _ => exact ⟨_, rfl, rfl⟩
  | .wStrmIntClear v, _ => exact ⟨_, rfl, State.foldl_strmResume_now _ _⟩
  | .wStrmRam n j v, _ => exact ⟨_, rfl, rfl⟩
  | .fireStrm n, _ => exact ⟨_, exec_fireStrm_of_enabled hen, State.drain_now _ n⟩

/-- 00_scope.md R11, 10_state.md R23: what does not reach the clock completes at the time it began. -/
theorem completesInstantly_of_enabled {i : Instr} {s : State} (hc : reach i ≠ .clock) (hen : Enabled i s) :
    CompletesInstantly i s := by
  cases h : reach i with
  | gpio => obtain ⟨g, he⟩ := exec_of_reach_gpio h s; exact ⟨_, he, s.withGpio_now g⟩
  | duty n => exact completesInstantly_of_reach_duty h hen
  | dutyLatch => obtain ⟨l, he⟩ := exec_of_reach_dutyLatch h s; exact ⟨_, he, rfl⟩
  | mcmp => exact completesInstantly_of_reach_mcmp h hen
  | strm => exact completesInstantly_of_reach_strm h hen
  | clock => exact absurd h hc
  | nothing => exact completesInstantly_of_reach_nothing h s
  | everything => cases i <;> cases h; exact ⟨_, rfl, s.systemReset_now⟩

/-- 20_memory.md R62: only `ADVANCE` reaches the clock. -/
theorem eq_advance_of_reach_clock {i : Instr} (h : reach i = .clock) : ∃ u, i = .advance u := by
  cases i <;> cases h; exact ⟨_, rfl⟩

/-- Settles O53, by what the operation reaches: `ADVANCE` moves `now` forward to its argument, everything else completes in
zero time. -/
theorem everyEnabledOperationCompletes : Obligations.EveryEnabledOperationCompletes := by
  unfold Obligations.EveryEnabledOperationCompletes
  intro i s hen
  by_cases hc : reach i = .clock
  · obtain ⟨u, rfl⟩ := eq_advance_of_reach_clock hc
    obtain ⟨hnow, _⟩ := hen.1 u rfl
    exact ⟨s.withNow u, exec_advance_of_enabled hen, hnow, fun h => absurd rfl (h u)⟩
  · obtain ⟨t, he, ht⟩ := completesInstantly_of_enabled hc hen
    exact ⟨t, he, ht.ge, fun _ => ht⟩

end Sys2Proof.Machine
end

section
/-! PROOF. What the procedures of the streaming engine reach: one channel, its slot and its two raw bits (46_stream_waveform.md
R278 to R288), and which raw bits a tick raises (R280). -/

namespace Sys2Proof.Machine

open Sys2Proof.Safety

/-! One tick, in the words of the rules. -/

/-- 41_interrupt_latch.md R133, in the words of `SetsBit`. -/
theorem Latch.hwSet_setsBit {w : Nat} (l : Latch w) (b : Nat) : SetsBit l.raw (l.hwSet b).raw b := by
  intro i hi
  rw [Latch.hwSet_raw_getLsbD, decide_eq_true hi, Bool.true_and]

theorem State.setStrmCh_oneElem (s : State) (n : StrmIx) (c : StrmCh) :
    OneElem s.strm.ch (s.setStrmCh n c).strm.ch n c := by
  constructor
  · simp
  · intro j hj
    simp [hj]

theorem Sched.set_oneSlot (x : Sched) (tok : Token) (d : Option Nat) : OneSlot x (x.set tok d) tok d := by
  constructor
  · simp
  · intro tok' h
    simp [h]

/-- 46_stream_waveform.md R280: the drain of the model is the drain of the rule. -/
theorem State.drain_drained (s : State) (n : StrmIx) : Drained n s (s.drain n) := by
  unfold State.drain
  split_ifs with hr hb
  · exact .inr (.inl ⟨hr, (s.strmBlocked_iff n).mp hb, _, rfl, rfl, s.setStrmCh_oneElem n _⟩)
  · have hb' : ¬ Blocked s n := fun h => hb ((s.strmBlocked_iff n).mpr h)
    rcases s.strmTick_spec n (s.strmCh n).burst.toNat with ⟨j, hj, hbefore, hs, he⟩ | ⟨hall, he⟩
    · exact .inr (.inr (.inl ⟨hr, hb', j, hj, hbefore, hs, _, he, s.setStrmCh_oneElem n _, rfl,
        s.strm.latch.hwSet_setsBit _⟩))
    · exact .inr (.inr (.inr ⟨hr, hb', hall, _, s.sched.set (.strm n) _, he, s.setStrmCh_oneElem n _, rfl,
        s.strm.latch.hwSet_setsBit _, s.sched.set_oneSlot _ _⟩))
  · exact .inl ⟨Bool.eq_false_of_not_eq_true hr, rfl⟩

/-! What belongs to one channel, and what to none. -/

/-- Channel m, its slot and its two raw bits are as before, and so are the time and the parameters they are judged by. -/
structure SameStrmCh (m : StrmIx) (s t : State) : Prop where
  now : t.now = s.now
  params : t.params = s.params
  ch : t.strmCh m = s.strmCh m
  slot : t.sched.get (.strm m) = s.sched.get (.strm m)
  done : t.strm.latch.raw.getLsbD m.val = s.strm.latch.raw.getLsbD m.val
  thr : t.strm.latch.raw.getLsbD (8 + m.val) = s.strm.latch.raw.getLsbD (8 + m.val)

/-- 30_encoding.md R101: the latch bits of stream channel n, completion and threshold. -/
def IsStrmBit (n : StrmIx) (b : Nat) : Prop := b = n.val ∨ b = 8 + n.val

/-- 20_memory.md R62: nothing changed but stream channels, their slots, their latch bits and the trace. -/
structure StrmFrame (s t : State) : Prop where
  now : t.now = s.now
  params : t.params = s.params
  gpio : t.gpio = s.gpio
  duty : t.duty = s.duty
  mcmp : t.mcmp = s.mcmp
  slot : ∀ tok, (∀ n, tok ≠ .strm n) → t.sched.get tok = s.sched.get tok
  enable : t.strm.latch.enable = s.strm.latch.enable
  reserved : ∀ b, b < 16 → (∀ n, ¬ IsStrmBit n b) → t.strm.latch.raw.getLsbD b = s.strm.latch.raw.getLsbD b

/-- Nothing changed but stream channel n, its slot, its latch bits and the trace. -/
structure OnlyStrmCh (n : StrmIx) (s t : State) : Prop where
  frame : StrmFrame s t
  others : ∀ m, m ≠ n → SameStrmCh m s t

theorem SameStrmCh.refl (m : StrmIx) (s : State) : SameStrmCh m s s := ⟨rfl, rfl, rfl, rfl, rfl, rfl⟩

theorem SameStrmCh.trans {m : StrmIx} {s t u : State} (h : SameStrmCh m s t) (k : SameStrmCh m t u) : SameStrmCh m s u :=
  ⟨k.now.trans h.now, k.params.trans h.params, k.ch.trans h.ch, k.slot.trans h.slot, k.done.trans h.done,
    k.thr.trans h.thr⟩

theorem StrmFrame.refl (s : State) : StrmFrame s s :=
  ⟨rfl, rfl, rfl, rfl, rfl, fun _ _ => rfl, rfl, fun _ _ _ => rfl⟩

theorem StrmFrame.trans {s t u : State} (h : StrmFrame s t) (k : StrmFrame t u) : StrmFrame s u :=
  ⟨k.now.trans h.now, k.params.trans h.params, k.gpio.trans h.gpio, k.duty.trans h.duty, k.mcmp.trans h.mcmp,
    fun tok ht => (k.slot tok ht).trans (h.slot tok ht), k.enable.trans h.enable,
    fun b hb hr => (k.reserved b hb hr).trans (h.reserved b hb hr)⟩

theorem OnlyStrmCh.refl (n : StrmIx) (s : State) : OnlyStrmCh n s s := ⟨.refl s, fun m _ => .refl m s⟩

theorem OnlyStrmCh.trans {n : StrmIx} {s t u : State} (h : OnlyStrmCh n s t) (k : OnlyStrmCh n t u) : OnlyStrmCh n s u :=
  ⟨h.frame.trans k.frame, fun m hm => (h.others m hm).trans (k.others m hm)⟩

/-- 46_stream_waveform.md R281: `Blocked` reads the channel's two raw bits only. -/
theorem SameStrmCh.blocked_iff {m : StrmIx} {s t : State} (h : SameStrmCh m s t) : Blocked t m ↔ Blocked s m := by
  rw [Blocked, Blocked, h.done, h.thr]

/-! The procedures. -/

theorem State.onlyStrmCh_setStrmCh (s : State) (n : StrmIx) (c : StrmCh) : OnlyStrmCh n s (s.setStrmCh n c) where
  frame := ⟨rfl, rfl, rfl, rfl, rfl, fun _ _ => rfl, rfl, fun _ _ _ => rfl⟩
  others m hm := ⟨rfl, rfl, by simp [hm], rfl, rfl, rfl⟩

theorem State.onlyStrmCh_cancel (s : State) (n : StrmIx) : OnlyStrmCh n s (s.cancel (.strm n)) where
  frame := ⟨rfl, rfl, rfl, rfl, rfl, fun tok h => by simp [h n], rfl, fun _ _ _ => rfl⟩
  others m hm := ⟨rfl, rfl, rfl, by simp [hm], rfl, rfl⟩

/-- Raising a bit of channel n leaves every bit of the other channels. -/
theorem raw_eq_of_setsBit {old new : BitVec 16} {n : StrmIx} {b i : Nat} (h : SetsBit old new b) (hb : IsStrmBit n b)
    (hi : i < 16) (hin : ¬ IsStrmBit n i) : new.getLsbD i = old.getLsbD i := by
  have hne : i ≠ b := fun e => hin (e ▸ hb)
  rw [h i hi, decide_eq_false hne, Bool.or_false]

theorem not_isStrmBit_of_ne {m n : StrmIx} (h : m ≠ n) : ¬ IsStrmBit n m.val ∧ ¬ IsStrmBit n (8 + m.val) := by
  have hval : m.val ≠ n.val := fun e => h (Fin.ext e)
  unfold IsStrmBit
  omega

/-- What changes channel n and one of its bits and appends to the trace, and its slot at most, leaves the rest. -/
theorem onlyStrmCh_of_write {n : StrmIx} {s : State} {q : Strm} {c : StrmCh} {b : Nat} (x : Sched) (es : List Event)
    (hch : OneElem s.strm.ch q.ch n c) (hen : q.latch.enable = s.strm.latch.enable)
    (hraw : SetsBit s.strm.latch.raw q.latch.raw b) (hb : IsStrmBit n b)
    (hx : ∀ tok, tok ≠ .strm n → x.get tok = s.sched.get tok) :
    OnlyStrmCh n s (((s.withStrm q).withSched x).withTrace es) where
  frame := ⟨rfl, rfl, rfl, rfl, rfl, fun tok ht => hx tok (ht n), hen,
    fun i hi hr => raw_eq_of_setsBit hraw hb hi (hr n)⟩
  others m hm := by
    obtain ⟨hd, ht⟩ := not_isStrmBit_of_ne hm
    exact ⟨rfl, rfl, hch.2 m hm, hx _ (by simp [hm]), raw_eq_of_setsBit hraw hb (by omega) hd,
      raw_eq_of_setsBit hraw hb (by omega) ht⟩

/-- 46_stream_waveform.md R280: a drain of channel n stays with channel n. -/
theorem onlyStrmCh_of_drained {n : StrmIx} {s t : State} (h : Drained n s t) : OnlyStrmCh n s t := by
  rcases h with ⟨_, rfl⟩ | ⟨_, _, q, rfl, hl, hch⟩ | ⟨_, _, j, _, _, _, q, rfl, hch, hen, hraw⟩ |
    ⟨_, _, _, q, x, rfl, hch, hen, hraw, hx⟩
  · exact .refl n t
  · refine ⟨⟨rfl, rfl, rfl, rfl, rfl, fun _ _ => rfl, congrArg Latch.enable hl, fun b _ _ => ?_⟩, fun m hm => ?_⟩
    · exact congrArg (·.raw.getLsbD b) hl
    · exact ⟨rfl, rfl, hch.2 m hm, rfl, congrArg (·.raw.getLsbD m.val) hl, congrArg (·.raw.getLsbD (8 + m.val)) hl⟩
  · exact onlyStrmCh_of_write s.sched _ hch hen hraw (.inl rfl) fun _ _ => rfl
  · exact onlyStrmCh_of_write x _ hch hen hraw (.inr rfl) hx.2

theorem State.onlyStrmCh_drain (s : State) (n : StrmIx) : OnlyStrmCh n s (s.drain n) :=
  onlyStrmCh_of_drained (s.drain_drained n)

theorem State.onlyStrmCh_strmStop (s : State) (n : StrmIx) : OnlyStrmCh n s (s.strmStop n) :=
  (s.onlyStrmCh_cancel n).trans (State.onlyStrmCh_setStrmCh _ n _)

theorem State.onlyStrmCh_strmStart (s : State) (n : StrmIx) : OnlyStrmCh n s (s.strmStart n) := by
  unfold State.strmStart
  dsimp only
  split_ifs
  · exact (s.onlyStrmCh_setStrmCh n _).trans (State.onlyStrmCh_drain _ n)
  · exact s.onlyStrmCh_setStrmCh n _

theorem State.onlyStrmCh_strmResume (s : State) (n : StrmIx) : OnlyStrmCh n s (s.strmResume n) := by
  unfold State.strmResume
  split_ifs
  · exact (s.onlyStrmCh_setStrmCh n _).trans (State.onlyStrmCh_drain _ n)
  · exact .refl n s

theorem State.strmFrame_foldl_strmResume (ns : List StrmIx) (s : State) :
    StrmFrame s (ns.foldl State.strmResume s) := by
  induction ns generalizing s with
  | nil => exact .refl s
  | cons n ns ih => exact (s.onlyStrmCh_strmResume n).frame.trans (ih _)

theorem State.sameStrmCh_foldl_strmResume {m : StrmIx} {ns : List StrmIx} (h : m ∉ ns) (s : State) :
    SameStrmCh m s (ns.foldl State.strmResume s) := by
  induction ns generalizing s with
  | nil => exact .refl m s
  | cons n ns ih =>
    obtain ⟨hne, hns⟩ := not_or.mp (mt List.mem_cons.mpr h)
    exact ((s.onlyStrmCh_strmResume n).others m hne).trans (ih hns _)

/-- 46_stream_waveform.md R287: of all the resumes after a clear, only channel m's own touches channel m. -/
theorem State.foldl_strmResume_at {m : StrmIx} {ns : List StrmIx} (hn : ns.Nodup) (h : m ∈ ns) (s : State) :
    ∃ u, SameStrmCh m s u ∧ SameStrmCh m (u.strmResume m) (ns.foldl State.strmResume s) := by
  induction ns generalizing s with
  | nil => cases h
  | cons n ns ih =>
    obtain ⟨hnotin, hn'⟩ := List.nodup_cons.mp hn
    rcases List.mem_cons.mp h with rfl | hmem
    · exact ⟨s, .refl m s, State.sameStrmCh_foldl_strmResume hnotin _⟩
    · have hne : m ≠ n := fun e => hnotin (e ▸ hmem)
      obtain ⟨u, hu, ht⟩ := ih hn' hmem (s.strmResume n)
      exact ⟨u, ((s.onlyStrmCh_strmResume n).others m hne).trans hu, ht⟩

end Sys2Proof.Machine
end

section
/-! PROOF. The invariant of 10_state.md R48 and 46_stream_waveform.md R291, taken apart into one condition per channel and its
slot, and what the procedures of the engines do to these conditions. -/

namespace Sys2Proof.Machine

open Sys2Proof.Safety

/-! One condition per channel. -/

/-- 10_state.md R48 (I3) for one slot. -/
def SlotAhead (now : Nat) (d : Option Nat) : Prop := ∀ x, d = some x → now ≤ x

/-- `DutyConsistent` for one channel and its slot. -/
def DutySlotOk (p : Params) (c : DutyCh) (d : Option Nat) : Prop :=
  c.running = d.isSome ∧ (c.running = false → c.phase = false) ∧
    (c.running = true → c.en = true ∧ dutyTimes p c ≠ none)

/-- `McmpConsistent` for one output and its slot. -/
def McmpSlotOk (c : OutCh) (d : Option Nat) : Prop := c.running = d.isSome ∧ (c.running = false → c.phase = false)

/-- What the invariant asks of stream channel n, but for the clause that what is owed is blocked (46_stream_waveform.md
R291): between the acknowledgement and the resume of an `INT_CLEAR` write (R287) that clause is open. -/
structure StrmShape (s : State) (n : StrmIx) : Prop where
  ahead : SlotAhead s.now (s.sched.get (.strm n))
  stopped : (s.strmCh n).running = false → s.sched.get (.strm n) = none ∧ (s.strmCh n).pending = false
  running : (s.strmCh n).running = true → (s.strmCh n).en = true ∧ Runnable s.params (s.strmCh n) ∧
    ((s.strmCh n).pending = true ↔ s.sched.get (.strm n) = none)
  oneBit : ¬ (s.strm.latch.raw.getLsbD n.val = true ∧ s.strm.latch.raw.getLsbD (8 + n.val) = true)

/-- All that the invariant asks of stream channel n. -/
structure StrmOk (s : State) (n : StrmIx) : Prop extends StrmShape s n where
  owedBlocked : (s.strmCh n).pending = true → Blocked s n

/-- All that the invariant asks besides the stream channels. -/
structure RestOk (s : State) : Prop where
  ahead : ∀ tok, (∀ n, tok ≠ .strm n) → SlotAhead s.now (s.sched.get tok)
  duty : ∀ n, DutySlotOk s.params (s.dutyCh n) (s.sched.get (.duty n))
  mcmp : ∀ o k, McmpSlotOk (s.mcmpOut o k) (s.sched.get (.mcmp o k))
  reserved : StrmReservedZero s

/-- The invariant, channel by channel. -/
theorem inv_iff (s : State) : Inv s ↔ RestOk s ∧ ∀ n, StrmOk s n := by
  constructor
  · intro h
    refine ⟨⟨fun tok _ => h.deadlines tok, h.duty, h.mcmp, h.reserved⟩, fun n => ?_⟩
    obtain ⟨hstop, hrun, howed, hbits⟩ := h.strm n
    exact ⟨⟨h.deadlines (.strm n), hstop, hrun, hbits⟩, howed⟩
  · rintro ⟨hrest, hstrm⟩
    refine ⟨fun tok => ?_, hrest.duty, hrest.mcmp,
      fun n => ⟨(hstrm n).stopped, (hstrm n).running, (hstrm n).owedBlocked, (hstrm n).oneBit⟩, hrest.reserved⟩
    cases tok with
    | duty n => exact hrest.ahead _ (by simp)
    | mcmp o k => exact hrest.ahead _ (by simp)
    | strm n => exact (hstrm n).ahead

theorem StrmShape.of_same {n : StrmIx} {s t : State} (h : StrmShape s n) (e : SameStrmCh n s t) : StrmShape t n where
  ahead := by rw [e.now, e.slot]; exact h.ahead
  stopped := by rw [e.ch, e.slot]; exact h.stopped
  running := by rw [e.ch, e.slot, e.params]; exact h.running
  oneBit := by rw [e.done, e.thr]; exact h.oneBit

theorem StrmOk.of_same {n : StrmIx} {s t : State} (h : StrmOk s n) (e : SameStrmCh n s t) : StrmOk t n where
  toStrmShape := h.toStrmShape.of_same e
  owedBlocked := by rw [e.ch, e.blocked_iff]; exact h.owedBlocked

/-- 10_state.md R45: the implemented bits of the `STRM` latch group are the bits of its channels. -/
theorem strmLatchMask_getLsbD_iff (b : Fin 16) : strmLatchMask.getLsbD b.val = true ↔ ∃ n, IsStrmBit n b.val := by
  have h : ∀ b : Fin 16, strmLatchMask.getLsbD b.val = true ↔ ∃ n : StrmIx, b.val = n.val ∨ b.val = 8 + n.val := by
    decide
  exact h b

/-- 10_state.md R45, bit by bit. -/
theorem reserved_eq_zero_iff (x : BitVec 16) : x &&& ~~~(0x0F0F : BitVec 16) = 0 ↔
    ∀ b, b < 16 → (∀ n, ¬ IsStrmBit n b) → x.getLsbD b = false := by
  have hbit : ∀ b, b < 16 → (x &&& ~~~(0x0F0F : BitVec 16)).getLsbD b = (x.getLsbD b && !strmLatchMask.getLsbD b) := by
    intro b hb
    rw [BitVec.getLsbD_and, BitVec.getLsbD_not, decide_eq_true hb, Bool.true_and]
    rfl
  constructor
  · intro h b hb hres
    have hmask := Bool.eq_false_of_not_eq_true (mt (strmLatchMask_getLsbD_iff ⟨b, hb⟩).mp (not_exists.mpr hres))
    have hx := hbit b hb
    rw [h, hmask, Bool.not_false, Bool.and_true] at hx
    exact hx.symm.trans BitVec.getLsbD_zero
  · intro h
    refine BitVec.eq_of_getLsbD_eq fun b hb => (hbit b hb).trans ?_
    rw [BitVec.ofNat_eq_ofNat, BitVec.getLsbD_zero]
    by_cases hres : ∃ n, IsStrmBit n b
    · rw [(strmLatchMask_getLsbD_iff ⟨b, hb⟩).mpr hres, Bool.not_true, Bool.and_false]
    · rw [h b hb (not_exists.mp hres), Bool.false_and]

/-- What touches stream channels only keeps the rest of the invariant. -/
theorem RestOk.of_strmFrame {s t : State} (h : RestOk s) (f : StrmFrame s t) : RestOk t where
  ahead tok htok := by rw [f.now, f.slot tok htok]; exact h.ahead tok htok
  duty n := by
    rw [f.params, f.slot (.duty n) (by simp), State.dutyCh, f.duty]
    exact h.duty n
  mcmp o k := by
    rw [f.slot (.mcmp o k) (by simp), State.mcmpOut, f.mcmp]
    exact h.mcmp o k
  reserved := by
    refine ⟨(reserved_eq_zero_iff _).mpr fun b hb hres => ?_, f.enable ▸ h.reserved.2⟩
    rw [f.reserved b hb hres]
    exact (reserved_eq_zero_iff _).mp h.reserved.1 b hb hres

theorem RestOk.withStrm {s : State} (h : RestOk s) {q : Strm} (hq : StrmReservedZero (s.withStrm q)) :
    RestOk (s.withStrm q) := ⟨h.ahead, h.duty, h.mcmp, hq⟩

/-- The invariant reads the time, the schedule, the parameters and the three engines, nothing else. -/
theorem inv_congr {s t : State} (h : Inv s) (hnow : t.now = s.now) (hsched : t.sched = s.sched)
    (hparams : t.params = s.params) (hduty : t.duty.ch = s.duty.ch) (hmcmp : t.mcmp.out = s.mcmp.out)
    (hstrm : t.strm = s.strm) : Inv t where
  deadlines tok d := by rw [hsched, hnow]; exact h.deadlines tok d
  duty n := by
    rw [hsched, hparams, State.dutyCh, hduty]
    exact h.duty n
  mcmp o k := by
    rw [hsched, State.mcmpOut, hmcmp]
    exact h.mcmp o k
  strm n := by
    rw [hsched, hparams, Blocked, State.strmCh, hstrm]
    exact h.strm n
  reserved := by
    rw [StrmReservedZero, hstrm]
    exact h.reserved

/-! Slots. -/

theorem slotAhead_none (now : Nat) : SlotAhead now none := fun _ h => nomatch h

theorem slotAhead_now_add (now d : Nat) : SlotAhead now (some (now + d)) := by
  rintro x ⟨⟩
  exact Nat.le_add_right now d

/-! The duty engine. -/

/-- Writing one duty channel and its slot, and the `DUTY` latch group, keeps the invariant when what is written meets its
condition. -/
theorem inv_dutyPut {s : State} (h : Inv s) (l : Latch 8) {n : DutyIx} {c : DutyCh} {d : Option Nat} (es : List Event)
    (hd : SlotAhead s.now d) (hc : DutySlotOk s.params c d) :
    Inv ((s.withDuty { s.duty with latch := l }).dutyPut n c d es) := by
  obtain ⟨hrest, hstrm⟩ := (inv_iff s).mp h
  have hslot : ∀ tok, ((s.withDuty { s.duty with latch := l }).dutyPut n c d es).sched.get tok =
      if tok = .duty n then d else s.sched.get tok := fun tok => Sched.get_set _ _ _ _
  have hch : ∀ m, ((s.withDuty { s.duty with latch := l }).dutyPut n c d es).dutyCh m =
      if m = n then c else s.dutyCh m := fun m => vector_get_set _ _ _ _
  refine (inv_iff _).mpr ⟨⟨fun tok htok => ?_, fun m => ?_, hrest.mcmp, hrest.reserved⟩,
    fun m => (hstrm m).of_same ⟨rfl, rfl, rfl, rfl, rfl, rfl⟩⟩
  · rw [hslot]
    split_ifs
    · exact hd
    · exact hrest.ahead tok htok
  · rw [hslot, hch]
    by_cases hm : m = n
    · rw [if_pos hm, if_pos (congrArg Token.duty hm)]
      exact hc
    · rw [if_neg hm, if_neg (fun e => hm (Token.duty.inj e))]
      exact hrest.duty m

/-- A channel that stands still and LOW without a deadline meets its condition. -/
theorem dutySlotOk_stopped (p : Params) (c : DutyCh) : DutySlotOk p { c with running := false, phase := false } none :=
  ⟨rfl, fun _ => rfl, fun h => nomatch h⟩

theorem dutySlotOk_running {p : Params} {c : DutyCh} (hr : c.running = true) (hen : c.en = true)
    (ht : dutyTimes p c ≠ none) (d : Nat) : DutySlotOk p c (some d) :=
  ⟨hr, fun h => absurd (hr.symm.trans h) (by simp), fun _ => ⟨hen, ht⟩⟩

/-- 44_duty_timer.md R205: a channel with a deadline is running and enabled. -/
theorem DutySlotOk.of_some {p : Params} {c : DutyCh} {d : Nat} (h : DutySlotOk p c (some d)) :
    c.running = true ∧ c.en = true := ⟨h.1, (h.2.2 h.1).1⟩

@[simp] theorem fadedCh_running (c : DutyCh) : (fadedCh c).running = c.running := by
  unfold fadedCh; split_ifs <;> rfl

@[simp] theorem fadedCh_en (c : DutyCh) : (fadedCh c).en = c.en := by
  unfold fadedCh; split_ifs <;> rfl

@[simp] theorem toggledCh_running (c : DutyCh) : (toggledCh c).running = c.running := by
  unfold toggledCh; split_ifs <;> simp

@[simp] theorem toggledCh_en (c : DutyCh) : (toggledCh c).en = c.en := by
  unfold toggledCh; split_ifs <;> simp

/-- `t` is `s` with duty channel n, its slot and the trace written; what was written meets its condition if that held
before. -/
def DutyWritten (n : DutyIx) (s t : State) : Prop :=
  ∃ c d es, t = s.dutyPut n c d es ∧
    (SlotAhead s.now (s.sched.get (.duty n)) → DutySlotOk s.params (s.dutyCh n) (s.sched.get (.duty n)) →
      SlotAhead s.now d ∧ DutySlotOk s.params c d)

theorem State.dutyPut_setDutyCh (s : State) (n : DutyIx) (c' c : DutyCh) (d : Option Nat) (es : List Event) :
    (s.setDutyCh n c').dutyPut n c d es = s.dutyPut n c d es := by
  unfold State.dutyPut
  rw [State.setDutyCh_setDutyCh]
  rfl

/-- A write of a channel alone, its slot written with what it held. -/
theorem State.setDutyCh_eq_dutyPut (s : State) (n : DutyIx) (c : DutyCh) :
    s.setDutyCh n c = s.dutyPut n c (s.sched.get (.duty n)) [] := by
  unfold State.dutyPut
  rw [Sched.set_get, List.append_nil]
  rfl

/-- 44_duty_timer.md R212: a start leaves an enabled channel running with a deadline, or inert. -/
theorem State.dutyStart_put (s : State) (n : DutyIx) : ∃ c d es, s.dutyStart n = s.dutyPut n c d es ∧
    SlotAhead s.now d ∧ ((s.dutyCh n).en = true → DutySlotOk s.params c d) := by
  rw [State.dutyStart_eq]
  cases ht : dutyTimes s.params (s.dutyCh n) with
  | none => exact ⟨_, _, _, rfl, slotAhead_none _, fun _ => dutySlotOk_stopped _ _⟩
  | some p =>
    have hne : dutyTimes s.params { s.dutyCh n with running := true, phase := true } ≠ none := by
      intro h
      cases ht.symm.trans h
    refine ⟨_, _, _, rfl, slotAhead_now_add _ _, fun hen => ?_⟩
    exact dutySlotOk_running (c := { s.dutyCh n with running := true, phase := true }) rfl hen hne _

/-- 44_duty_timer.md R216. -/
theorem dutyWritten_conf {n : DutyIx} {v : Word} {s t : State} (h : exec (.wDutyChConf n v) s = .next t) :
    DutyWritten n s t := by
  cases h
  have hch : (s.setDutyCh n (setDutyConf (s.dutyCh n) v)).dutyCh n = setDutyConf (s.dutyCh n) v := by simp
  split_ifs with hen
  · obtain ⟨c, d, es, he, hd, hc⟩ := (s.setDutyCh n (setDutyConf (s.dutyCh n) v)).dutyStart_put n
    rw [he, State.dutyPut_setDutyCh]
    exact ⟨c, d, es, rfl, fun _ _ => ⟨hd, hc hen⟩⟩
  · rw [State.dutyStop_eq, State.dutyPut_setDutyCh, hch]
    exact ⟨_, _, _, rfl, fun _ _ => ⟨slotAhead_none _, dutySlotOk_stopped _ _⟩⟩

/-- 44_duty_timer.md R217. -/
theorem dutyWritten_duty {n : DutyIx} {v : Word} {s t : State} (h : exec (.wDutyChDuty n v) s = .next t) :
    DutyWritten n s t := by
  cases h
  have hch : (s.setDutyCh n { s.dutyCh n with duty := v }).dutyCh n = { s.dutyCh n with duty := v } := by simp
  rw [hch]
  split_ifs with hr
  · obtain ⟨c, d, es, he, hd, hc⟩ := (s.setDutyCh n { s.dutyCh n with duty := v }).dutyStart_put n
    rw [hch] at hc
    rw [he, State.dutyPut_setDutyCh]
    exact ⟨c, d, es, rfl, fun _ hok => ⟨hd, hc (hok.2.2 hr).1⟩⟩
  · exact ⟨_, _, _, s.setDutyCh_eq_dutyPut n _, fun hd hok => ⟨hd, hok.1, hok.2.1, fun h => absurd h hr⟩⟩

/-- 44_duty_timer.md R218: the fade fields take no part in the condition. -/
theorem dutyWritten_fade {n : DutyIx} {v : Word} {s t : State} (h : exec (.wDutyChFade n v) s = .next t) :
    DutyWritten n s t := by
  cases h
  exact ⟨_, _, _, s.setDutyCh_eq_dutyPut n _, fun hd hok => ⟨hd, hok⟩⟩

/-- 47_virtual_clock.md R302, R303: an operation with an enabling condition that completes was enabled. -/
theorem next_of_guarded {p : Bool} {u t : State} {r : Refusal}
    (h : (if p then .next u else .refused r : Result) = .next t) : p = true ∧ t = u := by
  split_ifs at h with hp
  cases h
  exact ⟨hp, rfl⟩

/-- 47_virtual_clock.md R303: `FIRE DUTY(n)` that completes was due and ran the callback. -/
theorem exec_fireDuty_next {n : DutyIx} {s t : State} (h : exec (.fireDuty n) s = .next t) :
    s.sched.get (.duty n) = some s.now ∧ t = s.dutyFire n := by
  obtain ⟨hdue, ht⟩ := next_of_guarded (p := s.due (.duty n)) h
  exact ⟨(s.due_iff _).mp hdue, ht⟩

/-- 44_duty_timer.md R214. -/
theorem dutyWritten_fire {n : DutyIx} {s t : State} (h : exec (.fireDuty n) s = .next t) :
    DutyWritten n (s.withDuty { s.duty with latch := firedLatch s.duty.latch n (s.dutyCh n) }) t := by
  obtain ⟨hslot, rfl⟩ := exec_fireDuty_next h
  rw [State.dutyFire_eq]
  cases ht : dutyTimes s.params (toggledCh (s.dutyCh n)) with
  | none => exact ⟨_, _, _, rfl, fun _ _ => ⟨slotAhead_none _, dutySlotOk_stopped _ _⟩⟩
  | some p =>
    refine ⟨_, _, _, rfl, fun _ hok => ⟨slotAhead_now_add _ _, ?_⟩⟩
    have hok' : DutySlotOk s.params (s.dutyCh n) (some s.now) := hslot ▸ hok
    obtain ⟨hr, hen⟩ := hok'.of_some
    refine dutySlotOk_running ((toggledCh_running _).trans hr) ((toggledCh_en _).trans hen) (fun h0 => ?_) _
    cases ht.symm.trans h0

/-- 20_memory.md R62: the operations of duty channel n write it, its slot and the trace, and only the callback touches the
latch group. -/
theorem exec_of_reach_duty {i : Instr} {n : DutyIx} {s t : State} (h : reach i = .duty n) (he : exec i s = .next t) :
    ∃ l, (l = s.duty.latch ∨ i = .fireDuty n ∧ l = firedLatch s.duty.latch n (s.dutyCh n)) ∧
      DutyWritten n (s.withDuty { s.duty with latch := l }) t := by
  match i, h with
  | .wDutyChConf m v, rfl => exact ⟨_, .inl rfl, dutyWritten_conf he⟩
  | .wDutyChDuty m v, rfl => exact ⟨_, .inl rfl, dutyWritten_duty he⟩
  | .wDutyChFade m v, rfl => exact ⟨_, .inl rfl, dutyWritten_fade he⟩
  | .fireDuty m, rfl => exact ⟨_, .inr ⟨rfl, rfl⟩, dutyWritten_fire he⟩

/-! The compare engine. -/

/-- Writing one output channel and its slot keeps the invariant when what is written meets its condition. -/
theorem inv_mcmpPut {s : State} (h : Inv s) {o : OpIx} {k : OutIx} {c : OutCh} {d : Option Nat} (es : List Event)
    (hd : SlotAhead s.now d) (hc : McmpSlotOk c d) : Inv (s.mcmpPut o k c d es) := by
  obtain ⟨hrest, hstrm⟩ := (inv_iff s).mp h
  have hslot : ∀ tok, (s.mcmpPut o k c d es).sched.get tok = if tok = .mcmp o k then d else s.sched.get tok :=
    fun tok => Sched.get_set _ _ _ _
  have hch : ∀ o' k', (s.mcmpPut o k c d es).mcmpOut o' k' = if o' = o ∧ k' = k then c else s.mcmpOut o' k' :=
    fun o' k' => State.mcmpOut_setMcmpOut s o o' k k' c
  refine (inv_iff _).mpr ⟨⟨fun tok htok => ?_, hrest.duty, fun o' k' => ?_, hrest.reserved⟩,
    fun m => (hstrm m).of_same ⟨rfl, rfl, rfl, rfl, rfl, rfl⟩⟩
  · rw [hslot]
    split_ifs
    · exact hd
    · exact hrest.ahead tok htok
  · rw [hslot, hch]
    by_cases heq : o' = o ∧ k' = k
    · rw [if_pos heq, if_pos (by rw [heq.1, heq.2])]
      exact hc
    · rw [if_neg heq, if_neg (mt Token.mcmp.inj heq)]
      exact hrest.mcmp o' k'

theorem mcmpSlotOk_stopped (x : Cmp) : McmpSlotOk ⟨false, false, x⟩ none := ⟨rfl, fun _ => rfl⟩

theorem mcmpSlotOk_running {c : OutCh} (hr : c.running = true) (d : Nat) : McmpSlotOk c (some d) :=
  ⟨hr, fun h => absurd (hr.symm.trans h) (by simp)⟩

/-- `t` is `s` with one output channel, its slot and the trace written; what was written meets its condition if that held
before. -/
def McmpWritten (s t : State) : Prop :=
  ∃ o k c d es, t = s.mcmpPut o k c d es ∧
    (McmpSlotOk (s.mcmpOut o k) (s.sched.get (.mcmp o k)) → SlotAhead s.now d ∧ McmpSlotOk c d)

/-- 45_multi_timer_compare.md R246. -/
theorem State.mcmpArm_written (s : State) (o : OpIx) (k : OutIx) (x : Cmp) : McmpWritten s (s.mcmpArm o k x) := by
  rw [State.mcmpArm_eq]
  cases s.mcmpTimes o x with
  | none => exact ⟨o, k, _, _, _, rfl, fun _ => ⟨slotAhead_none _, mcmpSlotOk_stopped x⟩⟩
  | some p => exact ⟨o, k, _, _, _, rfl, fun _ => ⟨slotAhead_now_add _ _, mcmpSlotOk_running rfl _⟩⟩

/-- 47_virtual_clock.md R303: `FIRE MCMP(o,k)` that completes was due and ran the callback. -/
theorem exec_fireMcmp_next {o : OpIx} {k : OutIx} {s t : State} (h : exec (.fireMcmp o k) s = .next t) :
    s.sched.get (.mcmp o k) = some s.now ∧ t = s.mcmpFire o k := by
  obtain ⟨hdue, ht⟩ := next_of_guarded (p := s.due (.mcmp o k)) h
  exact ⟨(s.due_iff _).mp hdue, ht⟩

/-- 45_multi_timer_compare.md R248. -/
theorem mcmpWritten_fire {o : OpIx} {k : OutIx} {s t : State} (h : exec (.fireMcmp o k) s = .next t) :
    McmpWritten s t := by
  obtain ⟨hslot, rfl⟩ := exec_fireMcmp_next h
  rw [State.mcmpFire_eq]
  cases s.mcmpTimes o (s.mcmpOut o k).src with
  | none => exact ⟨o, k, _, _, _, rfl, fun _ => ⟨slotAhead_none _, mcmpSlotOk_stopped _⟩⟩
  | some p =>
    refine ⟨o, k, _, _, _, rfl, fun hok => ⟨slotAhead_now_add _ _, mcmpSlotOk_running ?_ _⟩⟩
    rw [hslot] at hok
    exact hok.1

/-- The timers and operators of `s` were written, and then at most one output channel, its slot and the trace. -/
def McmpReached (s t : State) : Prop :=
  ∃ q, q.out = s.mcmp.out ∧ (t = s.withMcmp q ∨ McmpWritten (s.withMcmp q) t)

/-- 45_multi_timer_compare.md R250, R251: the operator is stored and an output armed or not. -/
theorem mcmpReached_compare (s : State) (o : OpIx) (x : Oper) (k : OutIx) (y : Cmp) (p : Prop) [Decidable p] :
    McmpReached s (if p then (s.setMcmpOp o x).mcmpArm o k y else s.setMcmpOp o x) := by
  refine ⟨(s.setMcmpOp o x).mcmp, rfl, ?_⟩
  split_ifs
  · exact .inr (State.mcmpArm_written (s.setMcmpOp o x) o k y)
  · exact .inl rfl

/-- 20_memory.md R62, for the compare engine. -/
theorem exec_of_reach_mcmp {i : Instr} {s t : State} (h : reach i = .mcmp) (he : exec i s = .next t) :
    McmpReached s t := by
  match i, h with
  | .wMcmpTmrCfg m v, _ => cases he; exact ⟨{ s.mcmp with tmr := Vector.set s.mcmp.tmr m.val (tmrOf v) }, rfl, .inl rfl⟩
  | .wMcmpOpMode o v, _ =>
    cases he
    exact ⟨(s.setMcmpOp o { s.mcmpOp o with aSwap := v.getLsbD 0, bSwap := v.getLsbD 1 }).mcmp, rfl, .inl rfl⟩
  | .wMcmpOpCmpa o v, _ => cases he; exact mcmpReached_compare s o _ _ .a _
  | .wMcmpOpCmpb o v, _ => cases he; exact mcmpReached_compare s o _ _ .b _
  | .fireMcmp o k, _ => exact ⟨s.mcmp, rfl, .inr (mcmpWritten_fire he)⟩

/-! The streaming engine. -/

/-- A running channel on the point of a tick: enabled, runnable, with no deadline and owing nothing. -/
structure StrmReady (s : State) (n : StrmIx) : Prop where
  running : (s.strmCh n).running = true
  en : (s.strmCh n).en = true
  runnable : Runnable s.params (s.strmCh n)
  pending : (s.strmCh n).pending = false
  slot : s.sched.get (.strm n) = none
  oneBit : ¬ (s.strm.latch.raw.getLsbD n.val = true ∧ s.strm.latch.raw.getLsbD (8 + n.val) = true)

/-- A stopped channel with no deadline that owes nothing meets its condition. -/
theorem strmOk_stopped {s : State} {n : StrmIx} (hr : (s.strmCh n).running = false)
    (hp : (s.strmCh n).pending = false) (hs : s.sched.get (.strm n) = none)
    (hbits : ¬ (s.strm.latch.raw.getLsbD n.val = true ∧ s.strm.latch.raw.getLsbD (8 + n.val) = true)) : StrmOk s n where
  ahead := hs ▸ slotAhead_none s.now
  stopped _ := ⟨hs, hp⟩
  running h := absurd (hr.symm.trans h) (by simp)
  oneBit := hbits
  owedBlocked h := absurd (hp.symm.trans h) (by simp)

/-- 46_stream_waveform.md R280, R291: a tick ends in a deadline, in an owed emission that is blocked, or in a stop. -/
theorem StrmReady.strmOk_of_drained {s t : State} {n : StrmIx} (h : StrmReady s n) (hd : Drained n s t) :
    StrmOk t n := by
  rcases hd with ⟨hr, _⟩ | ⟨_, hb, q, rfl, hl, hch⟩ | ⟨_, hb, j, _, _, _, q, rfl, hch, _, hraw⟩ |
    ⟨_, hb, _, q, x, rfl, hch, _, hraw, hx⟩
  · exact absurd (h.running.symm.trans hr) (by simp)
  · have hc : (s.withStrm q).strmCh n = { s.strmCh n with pending := true } := hch.1
    refine ⟨⟨h.slot ▸ slotAhead_none _, fun h0 => ?_, fun _ => ?_, ?_⟩, fun _ => ?_⟩
    · rw [hc] at h0
      exact absurd (h.running.symm.trans h0) (by simp)
    · rw [hc]
      exact ⟨h.en, h.runnable, fun _ => h.slot, fun _ => rfl⟩
    · rw [State.withStrm_strm, hl]
      exact h.oneBit
    · rw [Blocked, State.withStrm_strm, hl]
      exact hb
  · obtain ⟨hdone, hthr⟩ := not_or.mp hb
    have hc := hch.1
    refine strmOk_stopped (congrArg StrmCh.running hc) ((congrArg StrmCh.pending hc).trans h.pending) h.slot fun h2 => ?_
    have := (hraw (8 + n.val) (by omega)).symm.trans h2.2
    simp [hthr] at this
  · obtain ⟨hdone, hthr⟩ := not_or.mp hb
    obtain ⟨hc, -⟩ := hch
    obtain ⟨hslot, -⟩ := hx
    have hrun : (q.ch.get n).running = true := (congrArg StrmCh.running hc).trans h.running
    have hen : (q.ch.get n).en = true := (congrArg StrmCh.en hc).trans h.en
    have hpend : (q.ch.get n).pending = false := (congrArg StrmCh.pending hc).trans h.pending
    have hrunnable : Runnable s.params (q.ch.get n) := by rw [hc]; exact h.runnable
    refine ⟨⟨hslot ▸ slotAhead_now_add _ _, fun h0 => ?_, fun _ => ⟨hen, hrunnable, fun h0 => ?_, fun h0 => ?_⟩,
      fun h2 => ?_⟩, fun h0 => ?_⟩
    · exact absurd (hrun.symm.trans h0) (by simp)
    · exact absurd (hpend.symm.trans h0) (by simp)
    · exact absurd (hslot.symm.trans h0) (by simp)
    · have := (hraw n.val (by omega)).symm.trans h2.1
      simp [hdone] at this
    · exact absurd (hpend.symm.trans h0) (by simp)

theorem StrmReady.strmOk_drain {s : State} {n : StrmIx} (h : StrmReady s n) : StrmOk (s.drain n) n :=
  h.strmOk_of_drained (s.drain_drained n)

/-- 46_stream_waveform.md R279. -/
theorem StrmOk.strmStart {s : State} {n : StrmIx} (h : StrmOk s n) (hr : (s.strmCh n).running = false)
    (hen : (s.strmCh n).en = true) : StrmOk (s.strmStart n) n := by
  obtain ⟨hslot, _⟩ := h.stopped hr
  unfold State.strmStart
  dsimp only
  split_ifs with hrun
  · refine StrmReady.strmOk_drain ⟨?_, ?_, ?_, ?_, hslot, h.oneBit⟩ <;>
      rw [State.strmCh_setStrmCh, if_pos rfl]
    · exact hen
    · exact (runnable_iff _ _).mp hrun
  · exact strmOk_stopped (by simp) (by simp) hslot h.oneBit

/-- 46_stream_waveform.md R287: after its resume a channel that still owes an emission is blocked. -/
theorem StrmShape.strmResume {s : State} {n : StrmIx} (h : StrmShape s n) : StrmOk (s.strmResume n) n := by
  unfold State.strmResume
  split_ifs with hcond
  · obtain ⟨hr, hp, _⟩ := hcond
    obtain ⟨hen, hrun, howed⟩ := h.running hr
    refine StrmReady.strmOk_drain ⟨?_, ?_, ?_, ?_, howed.mp hp, h.oneBit⟩ <;>
      rw [State.strmCh_setStrmCh, if_pos rfl]
    · exact hr
    · exact hen
    · exact hrun
  · refine ⟨h, fun hp => ?_⟩
    have hr : (s.strmCh n).running = true := by
      by_contra hr
      have := (h.stopped (Bool.eq_false_of_not_eq_true hr)).2
      simp [this] at hp
    by_contra hb
    exact hcond ⟨hr, hp, fun hb' => hb ((s.strmBlocked_iff n).mp hb')⟩

end Sys2Proof.Machine
end

section
/-! PROOF. The invariant is kept by every operation, by what the operation reaches (20_memory.md R62), and holds at
instantiation; the values after `RESET` (10_state.md R50). -/

namespace Sys2Proof.Machine

open Sys2Proof.Safety

/-! The operations of the streaming engine. -/

/-- 46_stream_waveform.md R285: the state a `CHn_CONF` write starts the channel from, stopped and with its new fields. -/
def State.strmStored (s : State) (n : StrmIx) (v : Word) : State :=
  (s.strmStop n).setStrmCh n (setStrmConf ((s.strmStop n).strmCh n) v)

theorem exec_wStrmChConf (n : StrmIx) (v : Word) (s : State) : exec (.wStrmChConf n v) s =
    .next (if ((s.strmStored n v).strmCh n).en then (s.strmStored n v).strmStart n else s.strmStored n v) := rfl

theorem State.strmStored_ch (s : State) (n : StrmIx) (v : Word) :
    (s.strmStored n v).strmCh n = { setStrmConf (s.strmCh n) v with running := false, pending := false } := by
  simp [State.strmStored, State.strmStop, setStrmConf, State.strmCh]

theorem State.onlyStrmCh_strmStored (s : State) (n : StrmIx) (v : Word) : OnlyStrmCh n s (s.strmStored n v) :=
  (s.onlyStrmCh_strmStop n).trans (State.onlyStrmCh_setStrmCh _ n _)

/-- 47_virtual_clock.md R303: `FIRE STRM(n)` that completes was due and ran a tick. -/
theorem exec_fireStrm_next {n : StrmIx} {s t : State} (h : exec (.fireStrm n) s = .next t) :
    s.sched.get (.strm n) = some s.now ∧ t = (s.cancel (.strm n)).drain n := by
  obtain ⟨hdue, ht⟩ := next_of_guarded (p := s.due (.strm n)) h
  exact ⟨(s.due_iff _).mp hdue, ht⟩

/-- 46_stream_waveform.md R287: the state after the acknowledgement, before the resumes. -/
def State.strmCleared (s : State) (v : Word) : State :=
  s.withStrm { s.strm with latch := s.strm.latch.clear (strmLatchOf v) 0 }

theorem exec_wStrmIntClear (v : Word) (s : State) :
    exec (.wStrmIntClear v) s = .next ((List.finRange 4).foldl State.strmResume (s.strmCleared v)) := rfl

/-- 41_interrupt_latch.md R135, R139: the named implemented bits are cleared, none is kept. -/
theorem State.strmCleared_raw (s : State) (v : Word) (b : Nat) :
    (s.strmCleared v).strm.latch.raw.getLsbD b = (s.strm.latch.raw.getLsbD b && !(strmLatchOf v).getLsbD b) := by
  simp [State.strmCleared]

/-- An operation of stream channel n alone keeps the invariant when it leaves its own channel right. -/
theorem inv_of_onlyStrmCh {n : StrmIx} {s t : State} (h : Inv s) (ho : OnlyStrmCh n s t) (hn : StrmOk t n) : Inv t := by
  obtain ⟨hrest, hstrm⟩ := (inv_iff s).mp h
  refine (inv_iff t).mpr ⟨hrest.of_strmFrame ho.frame, fun m => ?_⟩
  by_cases hm : m = n
  · exact hm ▸ hn
  · exact (hstrm m).of_same (ho.others m hm)

theorem strmOk_of_inv {s : State} (h : Inv s) (n : StrmIx) : StrmOk s n := ((inv_iff s).mp h).2 n

/-- 46_stream_waveform.md R285. -/
theorem inv_of_wStrmChConf {n : StrmIx} {v : Word} {s t : State} (h : Inv s)
    (he : exec (.wStrmChConf n v) s = .next t) : Inv t := by
  have hch := s.strmStored_ch n v
  have hok : StrmOk (s.strmStored n v) n :=
    strmOk_stopped (by rw [hch]) (by rw [hch]) (by simp [State.strmStored, State.strmStop]) (strmOk_of_inv h n).oneBit
  rw [exec_wStrmChConf] at he
  cases he
  split_ifs with hen
  · exact inv_of_onlyStrmCh h ((s.onlyStrmCh_strmStored n v).trans (State.onlyStrmCh_strmStart _ n))
      (hok.strmStart (by rw [hch]) hen)
  · exact inv_of_onlyStrmCh h (s.onlyStrmCh_strmStored n v) hok

/-- 46_stream_waveform.md R286: the ring takes no part in the invariant. -/
theorem inv_of_wStrmRam {n : StrmIx} {j : RingIx} {v : Word} {s t : State} (h : Inv s)
    (he : exec (.wStrmRam n j v) s = .next t) : Inv t := by
  cases he
  obtain ⟨⟨hahead, hstop, hrun, hbits⟩, howed⟩ := strmOk_of_inv h n
  refine inv_of_onlyStrmCh h (s.onlyStrmCh_setStrmCh n _) ⟨⟨hahead, ?_, ?_, hbits⟩, ?_⟩ <;>
    rw [State.strmCh_setStrmCh, if_pos rfl]
  · exact hstop
  · exact hrun
  · exact howed

/-- 46_stream_waveform.md R288: a due channel is running and owes nothing, so it is ready for its tick. -/
theorem inv_of_fireStrm {n : StrmIx} {s t : State} (h : Inv s) (he : exec (.fireStrm n) s = .next t) : Inv t := by
  obtain ⟨hslot, rfl⟩ := exec_fireStrm_next he
  have hn := strmOk_of_inv h n
  have hr : (s.strmCh n).running = true := by
    by_contra hr
    have := (hn.stopped (Bool.eq_false_of_not_eq_true hr)).1
    simp [this] at hslot
  obtain ⟨hen, hrun, howed⟩ := hn.running hr
  have hp : (s.strmCh n).pending = false := by
    by_contra hp
    have := howed.mp (Bool.eq_true_of_not_eq_false hp)
    simp [this] at hslot
  have hready : StrmReady (s.cancel (.strm n)) n := ⟨hr, hen, hrun, hp, by simp, hn.oneBit⟩
  exact inv_of_onlyStrmCh h ((s.onlyStrmCh_cancel n).trans (State.onlyStrmCh_drain _ n)) hready.strmOk_drain

/-- 41_interrupt_latch.md R148: only implemented bits are enabled. -/
theorem inv_of_wStrmIntEnable {v : Word} {s t : State} (h : Inv s) (he : exec (.wStrmIntEnable v) s = .next t) :
    Inv t := by
  cases he
  obtain ⟨hrest, hstrm⟩ := (inv_iff s).mp h
  refine (inv_iff _).mpr ⟨hrest.withStrm ⟨h.reserved.1, ?_⟩, fun m => (hstrm m).of_same ⟨rfl, rfl, rfl, rfl, rfl, rfl⟩⟩
  show strmLatchOf v &&& ~~~(0x0F0F : BitVec 16) = 0
  rw [strmLatchOf, strmLatchMask, BitVec.and_assoc, BitVec.and_not_self]
  exact BitVec.and_zero

/-- 46_stream_waveform.md R287: the acknowledgement may leave an owed emission unblocked, and the channel's resume mends
that. -/
theorem inv_of_wStrmIntClear {v : Word} {s t : State} (h : Inv s) (he : exec (.wStrmIntClear v) s = .next t) :
    Inv t := by
  rw [exec_wStrmIntClear] at he
  cases he
  obtain ⟨hrest, hstrm⟩ := (inv_iff s).mp h
  have hraw : ∀ b, (s.strmCleared v).strm.latch.raw.getLsbD b = true → s.strm.latch.raw.getLsbD b = true := by
    intro b hb
    rw [State.strmCleared_raw, Bool.and_eq_true] at hb
    exact hb.1
  have hreserved : StrmReservedZero (s.strmCleared v) := by
    refine ⟨(reserved_eq_zero_iff _).mpr fun b hb hres => ?_, h.reserved.2⟩
    rw [State.strmCleared_raw, (reserved_eq_zero_iff _).mp h.reserved.1 b hb hres, Bool.false_and]
  have hshape : ∀ n, StrmShape (s.strmCleared v) n := fun n =>
    ⟨(hstrm n).ahead, (hstrm n).stopped, (hstrm n).running,
      fun hb => (hstrm n).oneBit ⟨hraw _ hb.1, hraw _ hb.2⟩⟩
  refine (inv_iff _).mpr ⟨(hrest.withStrm hreserved).of_strmFrame (State.strmFrame_foldl_strmResume _ _), fun n => ?_⟩
  obtain ⟨u, hu, ht⟩ := State.foldl_strmResume_at (List.nodup_finRange 4) (List.mem_finRange n) (s.strmCleared v)
  exact (((hshape n).of_same hu).strmResume).of_same ht

/-! Every operation. -/

theorem inv_of_reach_strm {i : Instr} {s t : State} (hr : reach i = .strm) (h : Inv s) (he : exec i s = .next t) :
    Inv t := by
  match i, hr with
  | .wStrmChConf n v, _ => exact inv_of_wStrmChConf h he
  | .wStrmIntEnable v, _ => exact inv_of_wStrmIntEnable h he
  | .wStrmIntClear v, _ => exact inv_of_wStrmIntClear h he
  | .wStrmRam n j v, _ => exact inv_of_wStrmRam h he
  | .fireStrm n, _ => exact inv_of_fireStrm h he

theorem inv_of_reach_duty {i : Instr} {n : DutyIx} {s t : State} (hr : reach i = .duty n) (h : Inv s)
    (he : exec i s = .next t) : Inv t := by
  obtain ⟨l, -, c, d, es, rfl, hw⟩ := exec_of_reach_duty hr he
  obtain ⟨hd, hc⟩ := hw (h.deadlines _) (h.duty n)
  exact inv_dutyPut h l es hd hc

theorem inv_of_reach_mcmp {i : Instr} {s t : State} (hr : reach i = .mcmp) (h : Inv s) (he : exec i s = .next t) :
    Inv t := by
  obtain ⟨q, hq, hcase⟩ := exec_of_reach_mcmp hr he
  have hinv : Inv (s.withMcmp q) := inv_congr h rfl rfl rfl rfl hq rfl
  rcases hcase with rfl | ⟨o, k, c, d, es, rfl, hw⟩
  · exact hinv
  · obtain ⟨hd, hc⟩ := hw (hinv.mcmp o k)
    exact inv_mcmpPut hinv es hd hc

/-- 40_bus_dispatch.md R120, R123, R124, 43_gpio_crossbar.md R191: what reaches nothing writes `busData` or the trace at
most. -/
theorem exec_of_reach_nothing {i : Instr} {s t : State} (h : reach i = .nothing) (he : exec i s = .next t) :
    ∃ es d, t = (s.withTrace (s.trace ++ es)).withBusData d := by
  rcases cases_of_reach_nothing h with hr | hd | ⟨sig, level, param, rfl⟩
  · obtain ⟨w, hw⟩ := exec_of_isRead hr s
    cases hw.symm.trans he
    exact ⟨[], some w, by rw [List.append_nil]; rfl⟩
  · cases (exec_of_isDroppedWrite hd s).symm.trans he
    exact ⟨[], s.busData, by rw [List.append_nil]; rfl⟩
  · cases he
    exact ⟨_, s.busData, s.announce_eq sig.val level param⟩

/-- 47_virtual_clock.md R302: `ADVANCE` that completes was enabled and moved `now`. -/
theorem exec_advance_next {u : Nat} {s t : State} (h : exec (.advance u) s = .next t) :
    (s.now ≤ u ∧ ∀ tok d, s.sched.get tok = some d → u ≤ d) ∧ t = s.withNow u := by
  obtain ⟨hen, ht⟩ := next_of_guarded (p := s.advanceEnabled u) h
  exact ⟨(s.advanceEnabled_iff u).mp hen, ht⟩

/-- 70_reset_and_hazards.md R350. -/
theorem eq_reset_of_reach_everything {i : Instr} (h : reach i = .everything) : i = .reset := by
  cases i <;> cases h; rfl

/-- The invariant holds where every channel stands as after reset and no deadline is set (10_state.md R50). -/
theorem inv_of_atReset {s : State} (hsched : s.sched = Sched.empty) (hduty : s.duty = Duty.atReset)
    (hmcmp : s.mcmp = Mcmp.atReset) (hstrm : s.strm = Strm.atReset) : Inv s := by
  have hslot : ∀ tok, s.sched.get tok = none := fun tok => by rw [hsched, Sched.get_empty]
  have hd : ∀ n, s.dutyCh n = DutyCh.atReset := fun n => by
    simp [State.dutyCh, hduty, Duty.atReset, Vector.get_eq_getElem]
  have hm : ∀ o k, s.mcmpOut o k = ⟨false, false, .a⟩ := fun o k => by
    simp [State.mcmpOut, hmcmp, Mcmp.atReset, Vector.get_eq_getElem]
  have hs : ∀ n, s.strmCh n = StrmCh.atReset := fun n => by
    simp [State.strmCh, hstrm, Strm.atReset, Vector.get_eq_getElem]
  have hl : s.strm.latch = Latch.zero 16 := by rw [hstrm]; rfl
  refine (inv_iff s).mpr ⟨⟨fun tok _ => ?_, fun n => ?_, fun o k => ?_, ?_⟩, fun n => ?_⟩
  · rw [hslot]; exact slotAhead_none _
  · rw [hslot, hd]; exact dutySlotOk_stopped _ DutyCh.atReset
  · rw [hslot, hm]; exact mcmpSlotOk_stopped .a
  · rw [StrmReservedZero, hl]; exact ⟨rfl, rfl⟩
  · refine strmOk_stopped (by rw [hs]; rfl) (by rw [hs]; rfl) (hslot _) fun hb => ?_
    rw [hl] at hb
    simp [Latch.zero] at hb

/-- 10_state.md R48, 46_stream_waveform.md R291: every operation keeps the invariant. -/
theorem exec_keeps_inv {i : Instr} {s t : State} (h : Inv s) (he : exec i s = .next t) : Inv t := by
  cases hr : reach i with
  | gpio =>
    obtain ⟨g, hg⟩ := exec_of_reach_gpio hr s
    cases hg.symm.trans he
    exact inv_congr h rfl rfl rfl rfl rfl rfl
  | duty n => exact inv_of_reach_duty hr h he
  | dutyLatch =>
    obtain ⟨l, hl⟩ := exec_of_reach_dutyLatch hr s
    cases hl.symm.trans he
    exact inv_congr h rfl rfl rfl rfl rfl rfl
  | mcmp => exact inv_of_reach_mcmp hr h he
  | strm => exact inv_of_reach_strm hr h he
  | clock =>
    obtain ⟨u, rfl⟩ := eq_advance_of_reach_clock hr
    obtain ⟨⟨-, hahead⟩, rfl⟩ := exec_advance_next he
    exact ⟨hahead, h.duty, h.mcmp, h.strm, h.reserved⟩
  | nothing =>
    obtain ⟨es, d, rfl⟩ := exec_of_reach_nothing hr he
    exact inv_congr h rfl rfl rfl rfl rfl rfl
  | everything =>
    cases eq_reset_of_reach_everything hr
    cases he
    exact inv_of_atReset rfl rfl rfl rfl

/-- Settles O51: a step takes one request from the inbox, which the invariant does not read, and runs at most one
operation. -/
theorem everyStepKeepsTheInvariant : Obligations.EveryStepKeepsTheInvariant := by
  unfold Obligations.EveryStepKeepsTheInvariant
  intro s t h hstep
  unfold step at hstep
  split at hstep
  · cases hstep
    exact h
  · rename_i rest hinbox
    split at hstep
    · cases hstep
    · exact exec_keeps_inv (s := s.withInbox rest) (inv_congr h rfl rfl rfl rfl rfl rfl) hstep

/-- Settles O50: at instantiation and at reset every channel stands and no deadline is set. -/
theorem initialStatesMeetTheInvariant : Obligations.InitialStatesMeetTheInvariant := by
  unfold Obligations.InitialStatesMeetTheInvariant
  exact ⟨fun P => inv_of_atReset (s := State.initial P) rfl rfl rfl rfl,
    inv_of_atReset (s := State.reset) rfl rfl rfl rfl⟩

/-- 70_reset_and_hazards.md R351: no group has a pending enabled source after `RESET`. -/
theorem Latch.active_zero (w : Nat) : (Latch.zero w).active = false := by
  simp [Latch.active, Latch.status, Latch.zero]

/-- Settles O49: the tables of the reset state are constant, and instantiation is a reset. -/
theorem resetGivesTheTabledValues : Obligations.ResetGivesTheTabledValues := by
  unfold Obligations.ResetGivesTheTabledValues
  refine ⟨fun s => ⟨s.systemReset, rfl, rfl, rfl, Sched.get_empty, rfl, fun p => ?_, fun c => ?_, fun p => ?_,
    fun sig => ?_, fun n => ?_, rfl, fun i => ?_, fun o => ?_, fun o k => ?_, fun n => ?_, rfl, ?_, ?_, ?_, rfl⟩,
    fun P => rfl⟩
  · simp [Gpio.atReset, Vector.get_eq_getElem]
  · cases c <;> rfl
  · simp [Gpio.atReset, Vector.get_eq_getElem, OutSel.atReset]
  · simp [Gpio.atReset, Vector.get_eq_getElem, InSel.atReset]
  · simp [State.dutyCh, Duty.atReset, Vector.get_eq_getElem, DutyCh.atReset]
  · simp [Mcmp.atReset, Vector.get_eq_getElem]
  · simp [State.mcmpOp, Mcmp.atReset, Vector.get_eq_getElem]
  · simp [State.mcmpOut, Mcmp.atReset, Vector.get_eq_getElem]
  · simp [State.strmCh, Strm.atReset, Vector.get_eq_getElem, StrmCh.atReset]
  · rw [State.gpioIrq, State.systemReset_gpio]
    exact (Bool.or_eq_false_iff).mpr ⟨Latch.active_zero 49, Latch.active_zero 49⟩
  · exact Latch.active_zero 8
  · exact Latch.active_zero 16

end Sys2Proof.Machine
end

section
/-! PROOF. The trace is written at its end and never read (10_state.md R52): every procedure commutes with replacing the trace,
up to the events it emits. -/

namespace Sys2Proof.Machine

open Sys2Proof.Safety

/-! Procedures. -/

/-- 10_state.md R52: the procedure appends a list of events to the trace, the same whatever trace stands before. -/
def OnlyAppends (f : State → State) : Prop :=
  ∀ s, ∃ es, (f s).trace = s.trace ++ es ∧ ∀ old, f (s.withTrace old) = (f s).withTrace (old ++ es)

/-- What leaves the trace alone and commutes with replacing it. -/
theorem onlyAppends_of_silent {f : State → State} (ht : ∀ s, (f s).trace = s.trace)
    (hf : ∀ s old, f (s.withTrace old) = (f s).withTrace old) : OnlyAppends f :=
  fun s => ⟨[], by rw [List.append_nil, ht], fun old => by rw [List.append_nil, hf]⟩

/-- The events of two procedures in a row stand in that order. -/
theorem OnlyAppends.comp {f g : State → State} (hf : OnlyAppends f) (hg : OnlyAppends g) :
    OnlyAppends (fun s => g (f s)) := by
  intro s
  obtain ⟨es, hes, hf⟩ := hf s
  obtain ⟨es', hes', hg⟩ := hg (f s)
  refine ⟨es ++ es', ?_, fun old => ?_⟩
  · rw [hes', hes, List.append_assoc]
  · dsimp only
    rw [hf, hg, List.append_assoc]

/-- A procedure may choose by what does not read the trace. -/
theorem OnlyAppends.ite {f g : State → State} {p : State → Prop} [DecidablePred p]
    (hp : ∀ s old, p (s.withTrace old) ↔ p s) (hf : OnlyAppends f) (hg : OnlyAppends g) :
    OnlyAppends (fun s => if p s then f s else g s) := by
  intro s
  simp only [hp]
  split_ifs
  · exact hf s
  · exact hg s

theorem onlyAppends_id : OnlyAppends (fun s => s) := onlyAppends_of_silent (fun _ => rfl) fun _ _ => rfl

theorem onlyAppends_foldl {α : Type} {f : State → α → State} (hf : ∀ a, OnlyAppends (fun s => f s a)) (as : List α) :
    OnlyAppends (fun s => as.foldl f s) := by
  induction as with
  | nil => exact onlyAppends_id
  | cons a as ih => exact (hf a).comp ih

/-! The engines. -/

/-- A duty channel whose new fields are read off the old ones. -/
theorem onlyAppends_setDutyCh (n : DutyIx) (F : DutyCh → DutyCh) :
    OnlyAppends (fun s => s.setDutyCh n (F (s.dutyCh n))) := onlyAppends_of_silent (fun _ => rfl) fun _ _ => rfl

theorem onlyAppends_dutyStart (n : DutyIx) : OnlyAppends (fun s => s.dutyStart n) := by
  intro s
  simp only [State.dutyStart_eq, State.withTrace_params, State.dutyCh, State.withTrace_duty]
  cases dutyTimes s.params (s.duty.ch.get n) with
  | none => exact ⟨_, rfl, fun _ => rfl⟩
  | some p => exact ⟨_, rfl, fun _ => rfl⟩

theorem onlyAppends_dutyStop (n : DutyIx) : OnlyAppends (fun s => s.dutyStop n) := by
  intro s
  simp only [State.dutyStop_eq]
  exact ⟨_, rfl, fun _ => rfl⟩

theorem onlyAppends_dutyFire (n : DutyIx) : OnlyAppends (fun s => s.dutyFire n) := by
  intro s
  simp only [State.dutyFire_eq, State.withTrace_params, State.dutyCh, State.withTrace_duty]
  cases dutyTimes s.params (toggledCh (s.duty.ch.get n)) with
  | none => exact ⟨_, rfl, fun _ => rfl⟩
  | some p => exact ⟨_, rfl, fun _ => rfl⟩

theorem onlyAppends_setMcmpOp (o : OpIx) (F : Oper → Oper) :
    OnlyAppends (fun s => s.setMcmpOp o (F (s.mcmpOp o))) := onlyAppends_of_silent (fun _ => rfl) fun _ _ => rfl

theorem State.mcmpTimes_withTrace (s : State) (old : List Event) (o : OpIx) (x : Cmp) :
    (s.withTrace old).mcmpTimes o x = s.mcmpTimes o x := rfl

theorem State.mcmpOut_withTrace (s : State) (old : List Event) (o : OpIx) (k : OutIx) :
    (s.withTrace old).mcmpOut o k = s.mcmpOut o k := rfl

theorem onlyAppends_mcmpArm (o : OpIx) (k : OutIx) (x : Cmp) : OnlyAppends (fun s => s.mcmpArm o k x) := by
  intro s
  simp only [State.mcmpArm_eq, State.mcmpTimes_withTrace]
  cases s.mcmpTimes o x with
  | none => exact ⟨_, rfl, fun _ => rfl⟩
  | some p => exact ⟨_, rfl, fun _ => rfl⟩

/-- 45_multi_timer_compare.md R250, R251: a compare write stores the operator and, by what it held, arms the output it maps
to. -/
theorem onlyAppends_compare (o : OpIx) (F : Oper → Oper) (k : Oper → OutIx) (y : Cmp) (p : Oper → Prop)
    [DecidablePred p] : OnlyAppends (fun s =>
      if p (s.mcmpOp o) then (s.setMcmpOp o (F (s.mcmpOp o))).mcmpArm o (k (s.mcmpOp o)) y
      else s.setMcmpOp o (F (s.mcmpOp o))) := by
  have harm : OnlyAppends (fun s => (s.setMcmpOp o (F (s.mcmpOp o))).mcmpArm o (k (s.mcmpOp o)) y) :=
    fun s => ((onlyAppends_setMcmpOp o F).comp (onlyAppends_mcmpArm o (k (s.mcmpOp o)) y)) s
  exact .ite (p := fun s => p (s.mcmpOp o)) (fun _ _ => .rfl) harm (onlyAppends_setMcmpOp o F)

theorem onlyAppends_mcmpFire (o : OpIx) (k : OutIx) : OnlyAppends (fun s => s.mcmpFire o k) := by
  intro s
  simp only [State.mcmpFire_eq, State.mcmpOut_withTrace, State.mcmpTimes_withTrace]
  cases s.mcmpTimes o (s.mcmpOut o k).src with
  | none => exact ⟨_, rfl, fun _ => rfl⟩
  | some p => exact ⟨_, rfl, fun _ => rfl⟩

theorem onlyAppends_setStrmCh (n : StrmIx) (F : StrmCh → StrmCh) :
    OnlyAppends (fun s => s.setStrmCh n (F (s.strmCh n))) := onlyAppends_of_silent (fun _ => rfl) fun _ _ => rfl

theorem onlyAppends_cancel (tok : Token) : OnlyAppends (fun s => s.cancel tok) :=
  onlyAppends_of_silent (fun _ => rfl) fun _ _ => rfl

theorem onlyAppends_strmSend (n : StrmIx) : OnlyAppends (fun s => s.strmSend n) :=
  fun _ => ⟨_, rfl, fun _ => rfl⟩

/-- 46_stream_waveform.md R280: the burst loop, word by word. -/
theorem onlyAppends_strmBurst (n : StrmIx) (k : Nat) : OnlyAppends (fun s => s.strmBurst n k) := by
  induction k with
  | zero => exact onlyAppends_of_silent (fun _ => rfl) fun _ _ => rfl
  | succ k ih =>
    have hcomplete : OnlyAppends (fun s => s.strmComplete n) := onlyAppends_of_silent (fun _ => rfl) fun _ _ => rfl
    exact .ite (p := fun s => isSentinel (s.strmCh n).fetch = true) (fun _ _ => .rfl) hcomplete
      ((onlyAppends_strmSend n).comp ih)

theorem onlyAppends_drain (n : StrmIx) : OnlyAppends (fun s => s.drain n) := by
  have hburst : OnlyAppends (fun s => s.strmBurst n (s.strmCh n).burst.toNat) :=
    fun s => onlyAppends_strmBurst n (s.strmCh n).burst.toNat s
  have hrun : OnlyAppends (fun s => if s.strmBlocked n then s.setStrmCh n { s.strmCh n with pending := true }
      else s.strmBurst n (s.strmCh n).burst.toNat) :=
    .ite (fun _ _ => .rfl) (onlyAppends_setStrmCh n fun c => { c with pending := true }) hburst
  exact .ite (p := fun s => (s.strmCh n).running = true) (fun _ _ => .rfl) hrun onlyAppends_id

theorem onlyAppends_strmStart (n : StrmIx) : OnlyAppends (fun s => s.strmStart n) :=
  .ite (p := fun s => runnable s.params { s.strmCh n with cursor := 0, sent := 0, pending := false } = true)
    (fun _ _ => .rfl)
    ((onlyAppends_setStrmCh n fun c =>
      { c with cursor := 0, sent := 0, pending := false, running := true }).comp (onlyAppends_drain n))
    (onlyAppends_setStrmCh n fun c => { c with cursor := 0, sent := 0, pending := false, running := false })

theorem onlyAppends_strmResume (n : StrmIx) : OnlyAppends (fun s => s.strmResume n) :=
  .ite (p := fun s => (s.strmCh n).running = true ∧ (s.strmCh n).pending = true ∧ ¬ s.strmBlocked n = true)
    (fun _ _ => .rfl)
    ((onlyAppends_setStrmCh n fun c => { c with pending := false }).comp (onlyAppends_drain n)) onlyAppends_id

/-! Operations. -/

/-- 10_state.md R52: where the operation completes it appends a list of events, and under any other trace it does the same. -/
def TraceBlind (i : Instr) : Prop :=
  ∀ s t, exec i s = .next t →
    ∃ es, t.trace = s.trace ++ es ∧ ∀ old, exec i (s.withTrace old) = .next (t.withTrace (old ++ es))

/-- An operation that always completes. -/
theorem OnlyAppends.traceBlind {i : Instr} {f : State → State} (hf : OnlyAppends f) (hi : ∀ s, exec i s = .next (f s)) :
    TraceBlind i := by
  intro s t he
  obtain ⟨es, hes, hold⟩ := hf s
  cases (hi s).symm.trans he
  exact ⟨es, hes, fun old => (hi _).trans (congrArg _ (hold old))⟩

/-- 47_virtual_clock.md R302, R303: an operation with an enabling condition, which does not read the trace. -/
theorem OnlyAppends.traceBlind_guarded {i : Instr} {f : State → State} (hf : OnlyAppends f) {p : State → Bool}
    {r : Refusal} (hp : ∀ s old, p (s.withTrace old) = p s)
    (hi : ∀ s, exec i s = if p s then .next (f s) else .refused r) : TraceBlind i := by
  intro s t he
  obtain ⟨es, hes, hold⟩ := hf s
  rw [hi] at he
  split_ifs at he with hs
  cases he
  exact ⟨es, hes, fun old => by rw [hi, hp, if_pos hs, hold]⟩

/-- What touches neither the trace nor any engine that announces. -/
theorem traceBlind_of_silent {i : Instr} (hi : ∀ s, ∃ t, exec i s = .next t ∧ t.trace = s.trace ∧
    ∀ old, exec i (s.withTrace old) = .next (t.withTrace old)) : TraceBlind i := by
  intro s t he
  obtain ⟨t', he', htrace, hold⟩ := hi s
  cases he'.symm.trans he
  exact ⟨[], by rw [List.append_nil, htrace], fun old => by rw [List.append_nil, hold]⟩

theorem traceBlind_of_isRead {i : Instr} (h : isRead i = true) : TraceBlind i := by
  refine traceBlind_of_silent fun s => ?_
  cases i <;> cases h <;> exact ⟨_, rfl, rfl, fun _ => rfl⟩

theorem traceBlind_of_isDroppedWrite {i : Instr} (h : isDroppedWrite i = true) : TraceBlind i :=
  traceBlind_of_silent fun s => ⟨s, exec_of_isDroppedWrite h s, rfl, fun _ => exec_of_isDroppedWrite h _⟩

theorem traceBlind_of_reach_gpio {i : Instr} (h : reach i = .gpio) : TraceBlind i := by
  refine traceBlind_of_silent fun s => ?_
  cases i <;> cases h <;> exact ⟨_, rfl, rfl, fun _ => rfl⟩

theorem traceBlind_of_reach_dutyLatch {i : Instr} (h : reach i = .dutyLatch) : TraceBlind i := by
  refine traceBlind_of_silent fun s => ?_
  cases i <;> cases h <;> exact ⟨_, rfl, rfl, fun _ => rfl⟩

theorem traceBlind_of_reach_nothing {i : Instr} (h : reach i = .nothing) : TraceBlind i := by
  rcases cases_of_reach_nothing h with hr | hd | ⟨sig, level, param, rfl⟩
  · exact traceBlind_of_isRead hr
  · exact traceBlind_of_isDroppedWrite hd
  · exact OnlyAppends.traceBlind (f := fun s => s.announce sig.val level param) (fun _ => ⟨_, rfl, fun _ => rfl⟩)
      fun _ => rfl

theorem traceBlind_of_reach_duty {i : Instr} {n : DutyIx} (h : reach i = .duty n) : TraceBlind i := by
  match i, h with
  | .wDutyChConf m v, _ =>
    have hchoose : OnlyAppends (fun s => if (s.dutyCh m).en then s.dutyStart m else s.dutyStop m) :=
      .ite (fun _ _ => .rfl) (onlyAppends_dutyStart m) (onlyAppends_dutyStop m)
    exact ((onlyAppends_setDutyCh m (setDutyConf · v)).comp hchoose).traceBlind fun _ => rfl
  | .wDutyChDuty m v, _ =>
    have hchoose : OnlyAppends (fun s => if (s.dutyCh m).running then s.dutyStart m else s) :=
      .ite (fun _ _ => .rfl) (onlyAppends_dutyStart m) onlyAppends_id
    exact ((onlyAppends_setDutyCh m fun c => { c with duty := v }).comp hchoose).traceBlind fun _ => rfl
  | .wDutyChFade m v, _ => exact traceBlind_of_silent fun _ => ⟨_, rfl, rfl, fun _ => rfl⟩
  | .fireDuty m, _ => exact (onlyAppends_dutyFire m).traceBlind_guarded (fun _ _ => rfl) fun _ => rfl

theorem traceBlind_of_reach_mcmp {i : Instr} (h : reach i = .mcmp) : TraceBlind i := by
  match i, h with
  | .wMcmpTmrCfg m v, _ => exact traceBlind_of_silent fun _ => ⟨_, rfl, rfl, fun _ => rfl⟩
  | .wMcmpOpMode o v, _ => exact traceBlind_of_silent fun _ => ⟨_, rfl, rfl, fun _ => rfl⟩
  | .wMcmpOpCmpa o v, _ =>
    exact (onlyAppends_compare o (fun x => { x with cmpa := fieldOf v 0 16 }) (Oper.outOf · .a) .a
      fun x => fieldOf v 0 16 ≠ 0 ∧ fieldOf v 0 16 ≠ x.cmpa).traceBlind fun _ => rfl
  | .wMcmpOpCmpb o v, _ =>
    exact (onlyAppends_compare o (fun x => { x with cmpb := fieldOf v 0 16 }) (Oper.outOf · .b) .b
      fun x => fieldOf v 0 16 ≠ 0 ∧ fieldOf v 0 16 ≠ x.cmpb).traceBlind fun _ => rfl
  | .fireMcmp o k, _ => exact (onlyAppends_mcmpFire o k).traceBlind_guarded (fun _ _ => rfl) fun _ => rfl

theorem traceBlind_of_reach_strm {i : Instr} (h : reach i = .strm) : TraceBlind i := by
  match i, h with
  | .wStrmChConf n v, _ =>
    have hchoose : OnlyAppends (fun s => if (s.strmCh n).en then s.strmStart n else s) :=
      .ite (fun _ _ => .rfl) (onlyAppends_strmStart n) onlyAppends_id
    have hstored : OnlyAppends (fun s => s.strmStored n v) := onlyAppends_of_silent (fun _ => rfl) fun _ _ => rfl
    exact (hstored.comp hchoose).traceBlind fun _ => rfl
  | .wStrmIntEnable v, _ => exact traceBlind_of_silent fun _ => ⟨_, rfl, rfl, fun _ => rfl⟩
  | .wStrmIntClear v, _ =>
    have hcleared : OnlyAppends (fun s => s.strmCleared v) := onlyAppends_of_silent (fun _ => rfl) fun _ _ => rfl
    exact (hcleared.comp (onlyAppends_foldl onlyAppends_strmResume _)).traceBlind fun _ => rfl
  | .wStrmRam n j v, _ => exact traceBlind_of_silent fun _ => ⟨_, rfl, rfl, fun _ => rfl⟩
  | .fireStrm n, _ =>
    exact ((onlyAppends_cancel (.strm n)).comp (onlyAppends_drain n)).traceBlind_guarded (p := fun s => s.due (.strm n))
      (fun _ _ => rfl) fun _ => rfl

/-- Settles O54, by what the operation reaches. -/
theorem traceIsAppendedToAndNeverRead : Obligations.TraceIsAppendedToAndNeverRead := by
  unfold Obligations.TraceIsAppendedToAndNeverRead
  intro i
  show TraceBlind i
  cases h : reach i with
  | gpio => exact traceBlind_of_reach_gpio h
  | duty n => exact traceBlind_of_reach_duty h
  | dutyLatch => exact traceBlind_of_reach_dutyLatch h
  | mcmp => exact traceBlind_of_reach_mcmp h
  | strm => exact traceBlind_of_reach_strm h
  | clock =>
    obtain ⟨u, rfl⟩ := eq_advance_of_reach_clock h
    exact OnlyAppends.traceBlind_guarded (f := fun s => s.withNow u) (p := fun s => s.advanceEnabled u)
      (onlyAppends_of_silent (fun _ => rfl) fun _ _ => rfl) (fun _ _ => rfl) fun _ => rfl
  | nothing => exact traceBlind_of_reach_nothing h
  | everything =>
    cases eq_reset_of_reach_everything h
    exact traceBlind_of_silent fun _ => ⟨_, rfl, rfl, fun _ => rfl⟩

end Sys2Proof.Machine
end

section
/-! PROOF. What raises a raw bit (10_state.md R46) and what changes a pin level (R25): the sources of each, by what the
operation reaches (20_memory.md R62). -/

namespace Sys2Proof.Machine

open Sys2Proof.Safety

/-! What an operation does not reach. -/

/-- 20_memory.md R62, for the streaming engine. -/
theorem exec_of_reach_strm {i : Instr} {s t : State} (h : reach i = .strm) (he : exec i s = .next t) :
    t.gpio = s.gpio ∧ t.duty = s.duty := by
  match i, h with
  | .wStrmChConf n v, _ =>
    have hstored := (s.onlyStrmCh_strmStored n v).frame
    rw [exec_wStrmChConf] at he
    cases he
    split_ifs
    · have hframe := hstored.trans (State.onlyStrmCh_strmStart _ n).frame
      exact ⟨hframe.gpio, hframe.duty⟩
    · exact ⟨hstored.gpio, hstored.duty⟩
  | .wStrmIntEnable v, _ => cases he; exact ⟨rfl, rfl⟩
  | .wStrmIntClear v, _ =>
    rw [exec_wStrmIntClear] at he
    cases he
    have hframe := State.strmFrame_foldl_strmResume (List.finRange 4) (s.strmCleared v)
    exact ⟨hframe.gpio, hframe.duty⟩
  | .wStrmRam n j v, _ => cases he; exact ⟨rfl, rfl⟩
  | .fireStrm n, _ =>
    obtain ⟨-, rfl⟩ := exec_fireStrm_next he
    have hframe := ((s.onlyStrmCh_cancel n).trans (State.onlyStrmCh_drain _ n)).frame
    exact ⟨hframe.gpio, hframe.duty⟩

/-- 20_memory.md R62: an operation leaves the peripherals that it does not reach. -/
theorem exec_frame {i : Instr} {s t : State} (he : exec i s = .next t) (hne : reach i ≠ .everything) :
    (reach i ≠ .gpio → t.gpio = s.gpio) ∧
    (reach i ≠ .dutyLatch → (∀ n, reach i ≠ .duty n) → t.duty = s.duty) ∧
    (reach i ≠ .strm → t.strm = s.strm) := by
  cases hr : reach i with
  | gpio =>
    obtain ⟨g, hg⟩ := exec_of_reach_gpio hr s
    cases hg.symm.trans he
    exact ⟨fun h => absurd rfl h, fun _ _ => rfl, fun _ => rfl⟩
  | duty n =>
    obtain ⟨l, -, c, d, es, rfl, -⟩ := exec_of_reach_duty hr he
    exact ⟨fun _ => rfl, fun _ h => absurd rfl (h n), fun _ => rfl⟩
  | dutyLatch =>
    obtain ⟨l, hl⟩ := exec_of_reach_dutyLatch hr s
    cases hl.symm.trans he
    exact ⟨fun _ => rfl, fun h => absurd rfl h, fun _ => rfl⟩
  | mcmp =>
    obtain ⟨q, -, rfl | ⟨o, k, c, d, es, rfl, -⟩⟩ := exec_of_reach_mcmp hr he
    · exact ⟨fun _ => rfl, fun _ _ => rfl, fun _ => rfl⟩
    · exact ⟨fun _ => rfl, fun _ _ => rfl, fun _ => rfl⟩
  | strm =>
    obtain ⟨hgpio, hduty⟩ := exec_of_reach_strm hr he
    exact ⟨fun _ => hgpio, fun _ _ => hduty, fun h => absurd rfl h⟩
  | clock =>
    obtain ⟨u, rfl⟩ := eq_advance_of_reach_clock hr
    obtain ⟨-, rfl⟩ := exec_advance_next he
    exact ⟨fun _ => rfl, fun _ _ => rfl, fun _ => rfl⟩
  | nothing =>
    obtain ⟨es, d, rfl⟩ := exec_of_reach_nothing hr he
    exact ⟨fun _ => rfl, fun _ _ => rfl, fun _ => rfl⟩
  | everything => exact absurd hr hne

/-! Pins. -/

/-- 42_gpio_trigger.md R165: levels change on the pins of `on` only, and a raw bit newly raised is one whose pin changed
level and fired. -/
structure SetsPins (on : PinIx → Prop) (g g' : Gpio) : Prop where
  level : ∀ p, g'.level.getLsbD p.val ≠ g.level.getLsbD p.val → on p
  raised : ∀ c p, (g.latch c).raw.getLsbD p.val = false → (g'.latch c).raw.getLsbD p.val = true →
    g'.level.getLsbD p.val ≠ g.level.getLsbD p.val ∧
      fires (g.trig.get p) (g.level.getLsbD p.val) (g'.level.getLsbD p.val) = true

/-- What leaves the levels and raises no bit. -/
theorem setsPins_of_quiet {g g' : Gpio} (on : PinIx → Prop) (hlevel : g'.level = g.level)
    (hraw : ∀ (c : Ctx) (p : PinIx), (g'.latch c).raw.getLsbD p.val = true → (g.latch c).raw.getLsbD p.val = true) :
    SetsPins on g g' where
  level p h := absurd (congrArg (·.getLsbD p.val) hlevel) h
  raised c p h0 h1 := absurd (h0.symm.trans (hraw c p h1)) Bool.false_ne_true

theorem SetsPins.mono {on on' : PinIx → Prop} {g g' : Gpio} (h : SetsPins on g g') (hon : ∀ p, on p → on' p) :
    SetsPins on' g g' := ⟨fun p hp => hon p (h.level p hp), h.raised⟩

/-- 42_gpio_trigger.md R167, R168. -/
theorem Gpio.setsPins_setLevels (g : Gpio) {ps : List PinIx} (hn : ps.Nodup) (x : BitVec 49) :
    SetsPins (· ∈ ps) g (g.setLevels ps x) := by
  obtain ⟨-, -, -, hlevel, hctx⟩ := g.setLevels_spec ps hn x
  refine ⟨fun p hp => ?_, fun c p h0 h1 => ?_⟩
  · by_contra hnot
    exact hp ((hlevel p).trans (if_neg hnot))
  · rw [(hctx c).2 p, h0, Bool.false_or] at h1
    simp only [Bool.and_eq_true, decide_eq_true_eq, bne_iff_ne] at h1
    obtain ⟨⟨hmem, hne⟩, hfires⟩ := h1
    rw [hlevel p, if_pos hmem]
    exact ⟨Ne.symm hne, hfires⟩

/-- 42_gpio_trigger.md R165. -/
theorem Gpio.setsPins_setLevel (g : Gpio) (p : PinIx) (v : Bool) : SetsPins (· = p) g (g.setLevel p v) := by
  obtain ⟨-, -, -, hlevel, hctx⟩ := g.setLevel_spec p v
  refine ⟨fun j hj => ?_, fun c j h0 h1 => ?_⟩
  · by_contra hnot
    exact hj ((hlevel j).trans (if_neg hnot))
  · rw [(hctx c).2 j, h0, Bool.false_or] at h1
    simp only [Bool.and_eq_true, decide_eq_true_eq, bne_iff_ne] at h1
    obtain ⟨⟨rfl, hne⟩, hfires⟩ := h1
    rw [hlevel j, if_pos rfl]
    exact ⟨Ne.symm hne, hfires⟩

/-- 41_interrupt_latch.md R134, R135: the write of a latch group that raises no bit. -/
theorem Gpio.setsPins_setLatch (g : Gpio) (on : PinIx → Prop) (c : Ctx) (l : Latch 49)
    (h : ∀ p : PinIx, l.raw.getLsbD p.val = true → (g.latch c).raw.getLsbD p.val = true) :
    SetsPins on g (g.setLatch c l) := by
  refine setsPins_of_quiet on (g.setLatch_level c l) fun c' p hp => ?_
  rw [Gpio.latch_setLatch] at hp
  split_ifs at hp with hc
  · exact hc ▸ h p hp
  · exact hp

/-- 42_gpio_trigger.md R165, R167, R168: the operation carries a level for pin p. -/
def CarriesLevel (i : Instr) (p : PinIx) : Prop :=
  (∃ v, i = .pinIn p v) ∨ ∃ hi v, i = levelWrite hi v ∧ inHalf hi p = true

theorem setsPins_of_writeEnable {on : PinIx → Prop} {c : Ctx} {half : BitVec 49 → Word → BitVec 49} {v : Word}
    {s t : State} (he : writeEnable c half v s = .next t) : SetsPins on s.gpio t.gpio := by
  cases he
  exact s.gpio.setsPins_setLatch on c _ fun p hp => hp

theorem setsPins_of_writeClear {on : PinIx → Prop} {c : Ctx} {half : BitVec 49 → Word → BitVec 49} {v : Word}
    {s t : State} (he : writeClear c half v s = .next t) : SetsPins on s.gpio t.gpio := by
  cases he
  refine s.gpio.setsPins_setLatch on c _ fun p hp => ?_
  rw [Latch.clear_raw_getLsbD, Bool.and_eq_true] at hp
  exact hp.1

theorem setsPins_of_levelWrite {hi : Bool} {v : Word} {s t : State} (he : exec (levelWrite hi v) s = .next t) :
    SetsPins (CarriesLevel (levelWrite hi v)) s.gpio t.gpio := by
  cases hi with
  | false =>
    cases he
    refine (s.gpio.setsPins_setLevels loPins_nodup _).mono fun p hp => .inr ⟨false, v, rfl, ?_⟩
    have := (mem_loPins p).mp hp
    simp [inHalf, this]
  | true =>
    cases he
    refine (s.gpio.setsPins_setLevels hiPins_nodup _).mono fun p hp => .inr ⟨true, v, rfl, ?_⟩
    have := (mem_hiPins p).mp hp
    simp [inHalf, this]

/-- 20_memory.md R62, for the `GPIO` peripheral. -/
theorem setsPins_of_reach_gpio {i : Instr} {s t : State} (h : reach i = .gpio) (he : exec i s = .next t) :
    SetsPins (CarriesLevel i) s.gpio t.gpio := by
  match i, h with
  | .wGpioLevelLo v, _ => exact setsPins_of_levelWrite (hi := false) he
  | .wGpioLevelHi v, _ => exact setsPins_of_levelWrite (hi := true) he
  | .wGpioAEnableLo v, _ => exact setsPins_of_writeEnable he
  | .wGpioAEnableHi v, _ => exact setsPins_of_writeEnable he
  | .wGpioBEnableLo v, _ => exact setsPins_of_writeEnable he
  | .wGpioBEnableHi v, _ => exact setsPins_of_writeEnable he
  | .wGpioAClearLo v, _ => exact setsPins_of_writeClear he
  | .wGpioAClearHi v, _ => exact setsPins_of_writeClear he
  | .wGpioBClearLo v, _ => exact setsPins_of_writeClear he
  | .wGpioBClearHi v, _ => exact setsPins_of_writeClear he
  | .wGpioPinCfg p v, _ => cases he; exact setsPins_of_quiet _ rfl fun c _ hp => by cases c <;> exact hp
  | .wGpioOutsel p v, _ => cases he; exact setsPins_of_quiet _ rfl fun c _ hp => by cases c <;> exact hp
  | .wGpioInsel sig v, _ => cases he; exact setsPins_of_quiet _ rfl fun c _ hp => by cases c <;> exact hp
  | .pinIn p v, _ =>
    cases he
    exact (s.gpio.setsPins_setLevel p v).mono fun j hj => .inl ⟨v, by rw [hj]⟩

/-- Every operation but `RESET`. -/
theorem setsPins_of_exec {i : Instr} {s t : State} (he : exec i s = .next t) (hne : reach i ≠ .everything) :
    SetsPins (CarriesLevel i) s.gpio t.gpio := by
  by_cases hr : reach i = .gpio
  · exact setsPins_of_reach_gpio hr he
  · rw [(exec_frame he hne).1 hr]
    exact setsPins_of_quiet _ rfl fun _ _ hp => hp

/-! The duty engine's bits. -/

/-- 44_duty_timer.md R215: a fire latches its own channel's bit, and only while that is enabled. -/
theorem firedLatch_raised {l : Latch 8} {n : DutyIx} {c : DutyCh} {b : Nat} (h0 : l.raw.getLsbD b = false)
    (h1 : (firedLatch l n c).raw.getLsbD b = true) : b = n.val ∧ l.enable.getLsbD n.val = true := by
  unfold firedLatch fadedLatch at h1
  split_ifs at h1 with _ hends
  · rw [Latch.hwSet_raw_getLsbD, h0] at h1
    simp only [Bool.false_or, Bool.and_eq_true, decide_eq_true_eq] at h1
    exact ⟨h1.2, hends.2⟩
  · exact absurd (h0.symm.trans h1) Bool.false_ne_true
  · exact absurd (h0.symm.trans h1) Bool.false_ne_true

/-- 41_interrupt_latch.md R145, R146. -/
theorem dutyRaw_of_reach_dutyLatch {i : Instr} {s t : State} (h : reach i = .dutyLatch) (he : exec i s = .next t)
    {b : Nat} (h1 : t.duty.latch.raw.getLsbD b = true) : s.duty.latch.raw.getLsbD b = true := by
  match i, h with
  | .wDutyIntEnable v, _ => cases he; exact h1
  | .wDutyIntClear v, _ =>
    cases he
    rw [State.withDuty_duty, Latch.clear_raw_getLsbD, Bool.and_eq_true] at h1
    exact h1.1

theorem dutyBit_raised {i : Instr} {s t : State} (he : exec i s = .next t) (hne : reach i ≠ .everything) {m : DutyIx}
    (h0 : s.duty.latch.raw.getLsbD m.val = false) (h1 : t.duty.latch.raw.getLsbD m.val = true) :
    i = .fireDuty m ∧ s.duty.latch.enable.getLsbD m.val = true := by
  by_cases hl : reach i = .dutyLatch
  · exact absurd (h0.symm.trans (dutyRaw_of_reach_dutyLatch hl he h1)) Bool.false_ne_true
  by_cases hd : ∃ n, reach i = .duty n
  · obtain ⟨n, hn⟩ := hd
    obtain ⟨l, hcase, c, d, es, rfl, -⟩ := exec_of_reach_duty hn he
    rcases hcase with rfl | ⟨rfl, rfl⟩
    · exact absurd (h0.symm.trans h1) Bool.false_ne_true
    · obtain ⟨hmn, hen⟩ := firedLatch_raised h0 h1
      cases Fin.ext hmn
      exact ⟨rfl, hen⟩
  · rw [(exec_frame he hne).2.1 hl (not_exists.mp hd)] at h1
    exact absurd (h0.symm.trans h1) Bool.false_ne_true

/-! The streaming engine's bits. -/

theorem SameStrmCh.bit {m : StrmIx} {s t : State} (h : SameStrmCh m s t) {b : Nat} (hb : IsStrmBit m b) :
    t.strm.latch.raw.getLsbD b = s.strm.latch.raw.getLsbD b := by
  rcases hb with rfl | rfl
  · exact h.done
  · exact h.thr

/-- Setting bit `b'` raises no other bit. -/
theorem eq_of_setsBit_raised {w b b' : Nat} {old new : BitVec w} (h : SetsBit old new b') (hb : b < w)
    (h0 : old.getLsbD b = false) (h1 : new.getLsbD b = true) : b = b' := by
  rw [h b hb, h0, Bool.false_or] at h1
  exact of_decide_eq_true h1

/-- 46_stream_waveform.md R280: only a running, unblocked channel's tick latches, and it latches the channel's own bits. -/
theorem State.drain_raised {s : State} {n : StrmIx} {b : Nat} (hb : b < 16) (h0 : s.strm.latch.raw.getLsbD b = false)
    (h1 : (s.drain n).strm.latch.raw.getLsbD b = true) :
    IsStrmBit n b ∧ (s.strmCh n).running = true ∧ ¬ Blocked s n := by
  rcases s.drain_drained n with ⟨_, he⟩ | ⟨_, _, q, he, hl, _⟩ | ⟨hr, hblk, j, _, _, _, q, he, _, _, hraw⟩ |
    ⟨hr, hblk, _, q, x, he, _, _, hraw, _⟩
  · rw [he, h0] at h1
    exact absurd h1 Bool.false_ne_true
  · rw [he, State.withStrm_strm, hl, h0] at h1
    exact absurd h1 Bool.false_ne_true
  · rw [he] at h1
    exact ⟨.inl (eq_of_setsBit_raised hraw hb h0 h1), hr, hblk⟩
  · rw [he] at h1
    exact ⟨.inr (eq_of_setsBit_raised hraw hb h0 h1), hr, hblk⟩

/-- 46_stream_waveform.md R279: a start latches only if its first tick runs. -/
theorem State.strmStart_raised {s : State} {n : StrmIx} {b : Nat} (hb : b < 16)
    (h0 : s.strm.latch.raw.getLsbD b = false) (h1 : (s.strmStart n).strm.latch.raw.getLsbD b = true) :
    IsStrmBit n b ∧ Runnable s.params (s.strmCh n) ∧ ¬ Blocked s n := by
  unfold State.strmStart at h1
  dsimp only at h1
  split_ifs at h1 with hrun
  · obtain ⟨hbit, -, hblk⟩ := State.drain_raised (s := s.setStrmCh n _) hb h0 h1
    exact ⟨hbit, (runnable_iff _ _).mp hrun, hblk⟩
  · exact absurd (h0.symm.trans h1) Bool.false_ne_true

/-- 46_stream_waveform.md R287: a resume latches only if the channel owed an emission and is unblocked. -/
theorem State.strmResume_raised {s : State} {n : StrmIx} {b : Nat}
    (h0 : s.strm.latch.raw.getLsbD b = false) (h1 : (s.strmResume n).strm.latch.raw.getLsbD b = true) :
    (s.strmCh n).running = true ∧ (s.strmCh n).pending = true ∧ ¬ Blocked s n := by
  unfold State.strmResume at h1
  split_ifs at h1 with hcond
  · obtain ⟨hr, hp, hblk⟩ := hcond
    exact ⟨hr, hp, mt (s.strmBlocked_iff n).mpr hblk⟩
  · exact absurd (h0.symm.trans h1) Bool.false_ne_true

/-- 30_encoding.md R101: the implemented bits of a written latch word are bits of the word. -/
theorem strmLatchOf_getLsbD {v : Word} {b : Nat} (h : (strmLatchOf v).getLsbD b = true) : v.getLsbD b = true := by
  simp only [strmLatchOf, fieldOf, BitVec.getLsbD_and, BitVec.getLsbD_extractLsb', Bool.and_eq_true, Nat.zero_add] at h
  exact h.1.2

theorem strmBit_raised_of_conf {n : StrmIx} {v : Word} {s t : State} (he : exec (.wStrmChConf n v) s = .next t)
    {b : Nat} (hb : b < 16) (h0 : s.strm.latch.raw.getLsbD b = false) (h1 : t.strm.latch.raw.getLsbD b = true) :
    IsStrmBit n b ∧ Ticks n s (.wStrmChConf n v) := by
  have hch := s.strmStored_ch n v
  rw [exec_wStrmChConf, hch] at he
  cases he
  split_ifs at h1 with hen
  · obtain ⟨hbit, hrun, hblk⟩ := State.strmStart_raised (s := s.strmStored n v) hb h0 h1
    rw [hch] at hrun
    exact ⟨hbit, .inl ⟨v, rfl, hen, hrun, hblk⟩⟩
  · exact absurd (h0.symm.trans h1) Bool.false_ne_true

theorem strmBit_raised_of_fire {n : StrmIx} {s t : State} (he : exec (.fireStrm n) s = .next t)
    {b : Nat} (hb : b < 16) (h0 : s.strm.latch.raw.getLsbD b = false) (h1 : t.strm.latch.raw.getLsbD b = true) :
    IsStrmBit n b ∧ Ticks n s (.fireStrm n) := by
  obtain ⟨-, rfl⟩ := exec_fireStrm_next he
  obtain ⟨hbit, hr, hblk⟩ := State.drain_raised (s := s.cancel (.strm n)) hb h0 h1
  exact ⟨hbit, .inr (.inl ⟨rfl, hr, hblk⟩)⟩

/-- 46_stream_waveform.md R287: a bit raised by an `INT_CLEAR` write is raised by the resume of its own channel. -/
theorem strmBit_raised_of_clear {v : Word} {s t : State} (he : exec (.wStrmIntClear v) s = .next t)
    {b : Nat} (hb : b < 16) (h0 : s.strm.latch.raw.getLsbD b = false) (h1 : t.strm.latch.raw.getLsbD b = true) :
    ∃ n, IsStrmBit n b ∧ Ticks n s (.wStrmIntClear v) := by
  rw [exec_wStrmIntClear] at he
  cases he
  have hc0 : (s.strmCleared v).strm.latch.raw.getLsbD b = false := by rw [State.strmCleared_raw, h0, Bool.false_and]
  by_cases hbit : ∃ n, IsStrmBit n b
  · obtain ⟨n, hbit⟩ := hbit
    obtain ⟨u, hu, ht⟩ := State.foldl_strmResume_at (List.nodup_finRange 4) (List.mem_finRange n) (s.strmCleared v)
    obtain ⟨hr, hp, hblk⟩ := State.strmResume_raised ((hu.bit hbit).trans hc0) ((ht.bit hbit).symm.trans h1)
    rw [hu.ch] at hr hp
    rw [hu.blocked_iff] at hblk
    obtain ⟨hdone, hthr⟩ := not_or.mp hblk
    have named : ∀ i, ¬ (s.strmCleared v).strm.latch.raw.getLsbD i = true → s.strm.latch.raw.getLsbD i = true →
        v.getLsbD i = true := by
      intro i hi hraw
      rw [State.strmCleared_raw, hraw, Bool.true_and, Bool.not_eq_true', Bool.not_eq_false] at hi
      exact strmLatchOf_getLsbD hi
    exact ⟨n, hbit, .inr (.inr ⟨v, rfl, hr, hp, named _ hdone, named _ hthr⟩)⟩
  · have hres := (State.strmFrame_foldl_strmResume (List.finRange 4) (s.strmCleared v)).reserved b hb
      (not_exists.mp hbit)
    exact absurd (hc0.symm.trans (hres.symm.trans h1)) Bool.false_ne_true

theorem strmBit_raised {i : Instr} {s t : State} (he : exec i s = .next t) (hne : reach i ≠ .everything)
    {b : Nat} (hb : b < 16) (h0 : s.strm.latch.raw.getLsbD b = false) (h1 : t.strm.latch.raw.getLsbD b = true) :
    ∃ n, IsStrmBit n b ∧ Ticks n s i := by
  by_cases hr : reach i = .strm
  · match i, hr with
    | .wStrmChConf n v, _ => exact ⟨n, strmBit_raised_of_conf he hb h0 h1⟩
    | .wStrmIntClear v, _ => exact strmBit_raised_of_clear he hb h0 h1
    | .fireStrm n, _ => exact ⟨n, strmBit_raised_of_fire he hb h0 h1⟩
    | .wStrmIntEnable v, _ => cases he; exact absurd (h0.symm.trans h1) Bool.false_ne_true
    | .wStrmRam n j v, _ => cases he; exact absurd (h0.symm.trans h1) Bool.false_ne_true
  · rw [(exec_frame he hne).2.2 hr] at h1
    exact absurd (h0.symm.trans h1) Bool.false_ne_true

/-! The statements. -/

/-- Settles O57: `RESET` raises nothing, and every other operation raises the bits of what it reaches only. -/
theorem rawBitsAreSetOnlyByTheirSources : Obligations.RawBitsAreSetOnlyByTheirSources := by
  unfold Obligations.RawBitsAreSetOnlyByTheirSources
  intro i s t he
  by_cases hne : reach i = .everything
  · cases eq_reset_of_reach_everything hne
    cases he
    refine ⟨fun c p _ h1 => ?_, fun n _ h1 => ?_, fun b _ _ h1 => ?_⟩
    · cases c <;> simp [Gpio.latch, Gpio.atReset, Latch.zero] at h1
    · simp [Duty.atReset, Latch.zero] at h1
    · simp [Strm.atReset, Latch.zero] at h1
  · exact ⟨(setsPins_of_exec he hne).raised, fun n => dutyBit_raised he hne, fun b hb => strmBit_raised he hne hb⟩

/-- Settles O58: the pins that change level are those whose level the operation carries, but for `RESET`. -/
theorem levelsChangeOnlyThroughSetLevel : Obligations.LevelsChangeOnlyThroughSetLevel := by
  unfold Obligations.LevelsChangeOnlyThroughSetLevel
  intro i s t p he hlevel
  by_cases hne : reach i = .everything
  · exact .inr (.inr (eq_reset_of_reach_everything hne))
  · rcases (setsPins_of_exec he hne).level p hlevel with hpin | hword
    · exact .inl hpin
    · exact .inr (.inl hword)

end Sys2Proof.Machine
end

section
/-! PROOF. Which requests are operations of the block (20_memory.md R61, R64), what a step makes of a request (R72), and that
a bus read answers a word and nothing else (R66). -/

namespace Sys2Proof.Machine

open Sys2Proof.Safety

/-! Requests. -/

/-- 20_memory.md R60, R64: a bus access is refused unless it is one aligned word inside its window. -/
theorem busReject_eq_none_iff (off width : Nat) :
    busReject off width = none ↔ width = 32 ∧ off % 4 = 0 ∧ off ≤ 0xFFF := by
  unfold busReject
  split_ifs <;> simp <;> omega

/-- What `busReject` lets through is decoded by the rows of R86, which leave no offset without an operation (R87). -/
theorem decode_busRead_ok_iff (win : Window) (off width : Nat) :
    (∃ i, decode (.busRead win off width) = .ok i) ↔ busReject off width = none := by
  cases h : busReject off width <;> simp [decode, h]

theorem decode_busWrite_ok_iff (win : Window) (off width : Nat) (v : Word) :
    (∃ i, decode (.busWrite win off width v) = .ok i) ↔ busReject off width = none := by
  cases h : busReject off width <;> simp [decode, h]

/-- 20_memory.md R61: the pins 0 to 48 and the levels 0 and 1. -/
theorem decode_pinIn_ok_iff (p v : Nat) : (∃ i, decode (.pinIn p v) = .ok i) ↔ p ≤ 48 ∧ v ≤ 1 := by
  unfold decode
  dsimp only
  split_ifs <;> simp <;> omega

/-- 20_memory.md R61: the signals 0 to 255 and the levels 0 and 1. -/
theorem decode_announce_ok_iff (sig level : Nat) (q : Option Word) :
    (∃ i, decode (.announce sig level q) = .ok i) ↔ sig ≤ 255 ∧ level ≤ 1 := by
  unfold decode
  dsimp only
  split_ifs <;> simp <;> omega

/-- Settles O4, kind of request by kind of request. -/
theorem onlyAlignedWordsAndExistingPinsAreOperations :
    Obligations.OnlyAlignedWordsAndExistingPinsAreOperations := by
  unfold Obligations.OnlyAlignedWordsAndExistingPinsAreOperations
  exact ⟨fun win off width => (decode_busRead_ok_iff win off width).trans (busReject_eq_none_iff off width),
    fun win off width v => (decode_busWrite_ok_iff win off width v).trans (busReject_eq_none_iff off width),
    decode_pinIn_ok_iff, decode_announce_ok_iff⟩

/-! Steps. -/

/-- 20_memory.md R72: the oldest request, where it is an operation. -/
theorem step_of_decode_ok {s : State} {r : Request} {rest : List Request} {i : Instr} (hs : s.inbox = r :: rest)
    (hr : decode r = .ok i) : step s = exec i (s.withInbox rest) := by
  simp only [step, hs, hr]

/-- 20_memory.md R61, R64: the oldest request, where it is none. -/
theorem step_of_decode_error {s : State} {r : Request} {rest : List Request} {e : Reject} (hs : s.inbox = r :: rest)
    (hr : decode r = .error e) : step s = .refused (.notAnOperation e) := by
  simp only [step, hs, hr]

theorem step_of_inbox_nil {s : State} (hs : s.inbox = []) : step s = .next s := by
  simp only [step, hs]

/-- 30_encoding.md R106: a table word stands for an operation when its request decodes to it. -/
theorem decode_requestOfBits_of_tableWord {nbits w : Nat} {i : Instr} (h : decodeTableWord nbits w = some i) :
    decode (requestOfBits (w % 2 ^ nbits)) = .ok i := by
  unfold decodeTableWord at h
  cases hd : decode (requestOfBits (w % 2 ^ nbits)) with
  | error e => rw [hd] at h; cases h
  | ok j => rw [hd] at h; cases h; rfl

/-- Settles O6: a step is a match on the inbox and on what its head decodes to, and the word offered by `withFetchWord` is
that head. -/
theorem stepRunsTheDecodedOperation : Obligations.StepRunsTheDecodedOperation := by
  unfold Obligations.StepRunsTheDecodedOperation
  refine ⟨fun _ _ _ _ => step_of_decode_ok, fun _ _ _ _ => step_of_decode_error, fun _ => step_of_inbox_nil, ?_⟩
  intro s nbits w i h
  have hinbox : (s.withFetchWord nbits w).inbox = requestOfBits (w % 2 ^ nbits) :: s.inbox := rfl
  exact step_of_decode_ok hinbox (decode_requestOfBits_of_tableWord h)

/-! Reads. -/

/-- No read looks at the word an earlier read returned, and each overwrites it (log entry 3). -/
theorem exec_withBusData_of_isRead {i : Instr} (h : isRead i = true) (s : State) (d : Option Word) :
    exec i (s.withBusData d) = exec i s := by
  cases i <;> cases h <;> rfl

/-- Settles O7: the word a read answers stands in a field that the next read does not look at. -/
theorem readsAnswerAWordAndChangeNothing : Obligations.ReadsAnswerAWordAndChangeNothing := by
  unfold Obligations.ReadsAnswerAWordAndChangeNothing
  intro i s h
  obtain ⟨w, he⟩ := exec_of_isRead h s
  exact ⟨w, he, (exec_withBusData_of_isRead h s (some w)).trans he⟩

end Sys2Proof.Machine
end

section
/-! PROOF. What an operation leaves as it was, part by part (20_memory.md R62), and the fields that are the model's own. -/

namespace Sys2Proof.Machine

open Sys2Proof.Safety

/-! The procedures of the streaming engine. -/

/-- Nothing was written but the streaming engine, the schedule and the trace. -/
def WritesStrmOnly (s t : State) : Prop := ∃ q x es, t = ((s.withStrm q).withSched x).withTrace es

theorem WritesStrmOnly.refl (s : State) : WritesStrmOnly s s := ⟨s.strm, s.sched, s.trace, rfl⟩

theorem WritesStrmOnly.trans {s t u : State} (h : WritesStrmOnly s t) (k : WritesStrmOnly t u) : WritesStrmOnly s u := by
  obtain ⟨_, _, _, rfl⟩ := h
  obtain ⟨q, x, es, rfl⟩ := k
  exact ⟨q, x, es, rfl⟩

theorem writesStrmOnly_of_drained {n : StrmIx} {s t : State} (h : Drained n s t) : WritesStrmOnly s t := by
  rcases h with ⟨_, rfl⟩ | ⟨_, _, q, rfl, _⟩ | ⟨_, _, _, _, _, _, q, rfl, _⟩ | ⟨_, _, _, q, x, rfl, _⟩
  · exact .refl t
  · exact ⟨q, s.sched, s.trace, rfl⟩
  · exact ⟨q, s.sched, _, rfl⟩
  · exact ⟨q, x, _, rfl⟩

theorem State.writesStrmOnly_setStrmCh (s : State) (n : StrmIx) (c : StrmCh) : WritesStrmOnly s (s.setStrmCh n c) :=
  ⟨(s.setStrmCh n c).strm, s.sched, s.trace, rfl⟩

theorem State.writesStrmOnly_cancel (s : State) (tok : Token) : WritesStrmOnly s (s.cancel tok) :=
  ⟨s.strm, (s.cancel tok).sched, s.trace, rfl⟩

theorem State.writesStrmOnly_drain (s : State) (n : StrmIx) : WritesStrmOnly s (s.drain n) :=
  writesStrmOnly_of_drained (s.drain_drained n)

theorem State.writesStrmOnly_strmStored (s : State) (n : StrmIx) (v : Word) : WritesStrmOnly s (s.strmStored n v) :=
  ((s.writesStrmOnly_cancel (.strm n)).trans (State.writesStrmOnly_setStrmCh _ n _)).trans
    (State.writesStrmOnly_setStrmCh _ n _)

theorem State.writesStrmOnly_strmStart (s : State) (n : StrmIx) : WritesStrmOnly s (s.strmStart n) := by
  unfold State.strmStart
  dsimp only
  split_ifs
  · exact (s.writesStrmOnly_setStrmCh n _).trans (State.writesStrmOnly_drain _ n)
  · exact s.writesStrmOnly_setStrmCh n _

theorem State.writesStrmOnly_strmResume (s : State) (n : StrmIx) : WritesStrmOnly s (s.strmResume n) := by
  unfold State.strmResume
  split_ifs
  · exact (s.writesStrmOnly_setStrmCh n _).trans (State.writesStrmOnly_drain _ n)
  · exact .refl s

theorem State.writesStrmOnly_foldl_strmResume (ns : List StrmIx) (s : State) :
    WritesStrmOnly s (ns.foldl State.strmResume s) := by
  induction ns generalizing s with
  | nil => exact .refl s
  | cons n ns ih => exact (s.writesStrmOnly_strmResume n).trans (ih _)

/-- 20_memory.md R62: of the schedule, the operations of the streaming engine write its own slots only. -/
theorem exec_of_reach_strm_frame {i : Instr} {s t : State} (h : reach i = .strm) (he : exec i s = .next t) :
    WritesStrmOnly s t ∧ ∀ tok, (∀ n, tok ≠ .strm n) → t.sched.get tok = s.sched.get tok := by
  match i, h with
  | .wStrmChConf n v, _ =>
    rw [exec_wStrmChConf] at he
    cases he
    have hframe := (s.onlyStrmCh_strmStored n v).frame
    split_ifs
    · exact ⟨(s.writesStrmOnly_strmStored n v).trans (State.writesStrmOnly_strmStart _ n),
        (hframe.trans (State.onlyStrmCh_strmStart _ n).frame).slot⟩
    · exact ⟨s.writesStrmOnly_strmStored n v, hframe.slot⟩
  | .wStrmIntEnable v, _ => 
    cases he
    exact ⟨⟨{ s.strm with latch := s.strm.latch.setEnable (strmLatchOf v) }, s.sched, s.trace, rfl⟩, fun _ _ => rfl⟩
  | .wStrmIntClear v, _ =>
    rw [exec_wStrmIntClear] at he
    cases he
    have hcleared : WritesStrmOnly s (s.strmCleared v) := ⟨(s.strmCleared v).strm, s.sched, s.trace, rfl⟩
    exact ⟨hcleared.trans (State.writesStrmOnly_foldl_strmResume _ _),
      (State.strmFrame_foldl_strmResume (List.finRange 4) (s.strmCleared v)).slot⟩
  | .wStrmRam n j v, _ => cases he; exact ⟨s.writesStrmOnly_setStrmCh n _, fun _ _ => rfl⟩
  | .fireStrm n, _ =>
    obtain ⟨-, rfl⟩ := exec_fireStrm_next he
    exact ⟨(s.writesStrmOnly_cancel _).trans (State.writesStrmOnly_drain _ n),
      ((s.onlyStrmCh_cancel n).trans (State.onlyStrmCh_drain _ n)).frame.slot⟩

/-! What an operation does not reach. -/

/-- 20_memory.md R62, for an operation that reaches `r`: every other part of the block is as it was. -/
structure StaysIn (r : Reach) (s t : State) : Prop where
  gpio : r ≠ .gpio → t.gpio = s.gpio
  dutyCh : ∀ n, r ≠ .duty n → t.dutyCh n = s.dutyCh n ∧ t.sched.get (.duty n) = s.sched.get (.duty n) ∧
    (r ≠ .dutyLatch → t.duty.latch.raw.getLsbD n.val = s.duty.latch.raw.getLsbD n.val)
  dutyEnable : r ≠ .dutyLatch → t.duty.latch.enable = s.duty.latch.enable
  mcmp : r ≠ .mcmp → t.mcmp = s.mcmp ∧ ∀ o k, t.sched.get (.mcmp o k) = s.sched.get (.mcmp o k)
  strm : r ≠ .strm → t.strm = s.strm ∧ ∀ n, t.sched.get (.strm n) = s.sched.get (.strm n)
  now : r ≠ .clock → t.now = s.now

/-- The fields of the model's own: no operation writes the parameters or the inbox (log entries 1 and 4), and only a read
writes the word it answers (log entry 3). -/
def KeepsOwnFields (i : Instr) (s t : State) : Prop :=
  t.params = s.params ∧ t.inbox = s.inbox ∧ (isRead i = false → t.busData = s.busData)

/-- What leaves the schedule, the duty channels and the streaming engine as they were. -/
theorem staysIn_of_sched_eq {r : Reach} {s t : State} (hsched : t.sched = s.sched) (hch : t.duty.ch = s.duty.ch)
    (hstrm : t.strm = s.strm) (hgpio : r ≠ .gpio → t.gpio = s.gpio)
    (hlatch : r ≠ .dutyLatch → t.duty.latch = s.duty.latch) (hmcmp : r ≠ .mcmp → t.mcmp = s.mcmp)
    (hnow : r ≠ .clock → t.now = s.now) : StaysIn r s t where
  gpio := hgpio
  dutyCh n _ := ⟨congrArg (·.get n) hch, by rw [hsched], fun h => by rw [hlatch h]⟩
  dutyEnable h := by rw [hlatch h]
  mcmp h := ⟨hmcmp h, fun _ _ => by rw [hsched]⟩
  strm _ := ⟨hstrm, fun _ => by rw [hsched]⟩
  now := hnow

/-- 44_duty_timer.md R215: a fire raises the channel's own bit at most and enables none. -/
theorem firedLatch_frame (l : Latch 8) (n : DutyIx) (c : DutyCh) : (firedLatch l n c).enable = l.enable ∧
    ∀ m : DutyIx, m ≠ n → (firedLatch l n c).raw.getLsbD m.val = l.raw.getLsbD m.val := by
  unfold firedLatch fadedLatch
  split_ifs
  · refine ⟨rfl, fun m hm => ?_⟩
    have hval : m.val ≠ n.val := fun e => hm (Fin.ext e)
    rw [Latch.hwSet_raw_getLsbD, decide_eq_false hval, Bool.and_false, Bool.or_false]
  · exact ⟨rfl, fun _ _ => rfl⟩
  · exact ⟨rfl, fun _ _ => rfl⟩

/-- Writing duty channel n and its slot, and its bit of the latch group, stays with channel n. -/
theorem State.staysIn_dutyPut (s : State) {l : Latch 8} {n : DutyIx} (c : DutyCh) (d : Option Nat) (es : List Event)
    (hen : l.enable = s.duty.latch.enable)
    (hraw : ∀ m : DutyIx, m ≠ n → l.raw.getLsbD m.val = s.duty.latch.raw.getLsbD m.val) :
    StaysIn (.duty n) s ((s.withDuty { s.duty with latch := l }).dutyPut n c d es) where
  gpio _ := rfl
  dutyCh m hm := by
    have hne : m ≠ n := fun e => hm (e ▸ rfl)
    refine ⟨?_, ?_, fun _ => hraw m hne⟩
    · exact (State.dutyCh_setDutyCh _ n m c).trans (if_neg hne)
    · exact (Sched.get_set _ _ _ _).trans (if_neg fun e => hne (Token.duty.inj e))
  dutyEnable _ := hen
  mcmp _ := ⟨rfl, fun _ _ => rfl⟩
  strm _ := ⟨rfl, fun _ => rfl⟩
  now _ := rfl

theorem staysIn_of_reach_duty {i : Instr} {n : DutyIx} {s t : State} (h : reach i = .duty n)
    (he : exec i s = .next t) : StaysIn (.duty n) s t ∧ KeepsOwnFields i s t := by
  obtain ⟨l, hl, c, d, es, rfl, -⟩ := exec_of_reach_duty h he
  refine ⟨?_, rfl, rfl, fun _ => rfl⟩
  rcases hl with rfl | ⟨-, rfl⟩
  · exact s.staysIn_dutyPut c d es rfl fun _ _ => rfl
  · obtain ⟨hen, hraw⟩ := firedLatch_frame s.duty.latch n (s.dutyCh n)
    exact s.staysIn_dutyPut c d es hen hraw

/-- Writing the compare engine, and one slot of it, stays with that engine. -/
theorem State.staysIn_mcmpPut (s : State) (q : Mcmp) (o : OpIx) (k : OutIx) (c : OutCh) (d : Option Nat)
    (es : List Event) : StaysIn .mcmp s ((s.withMcmp q).mcmpPut o k c d es) where
  gpio _ := rfl
  dutyCh n _ := ⟨rfl, by simp [State.mcmpPut], fun _ => rfl⟩
  dutyEnable _ := rfl
  mcmp h := absurd rfl h
  strm _ := ⟨rfl, fun n => by simp [State.mcmpPut]⟩
  now _ := rfl

theorem staysIn_of_reach_mcmp {i : Instr} {s t : State} (h : reach i = .mcmp) (he : exec i s = .next t) :
    StaysIn .mcmp s t ∧ KeepsOwnFields i s t := by
  obtain ⟨q, -, rfl | ⟨o, k, c, d, es, rfl, -⟩⟩ := exec_of_reach_mcmp h he
  · exact ⟨staysIn_of_sched_eq rfl rfl rfl (fun _ => rfl) (fun _ => rfl) (fun h => absurd rfl h) fun _ => rfl,
      rfl, rfl, fun _ => rfl⟩
  · exact ⟨s.staysIn_mcmpPut q o k c d es, rfl, rfl, fun _ => rfl⟩

/-- Writing the streaming engine, and its own slots, stays with that engine. -/
theorem staysIn_of_writesStrmOnly {s t : State} (h : WritesStrmOnly s t)
    (hslot : ∀ tok, (∀ n, tok ≠ .strm n) → t.sched.get tok = s.sched.get tok) : StaysIn .strm s t := by
  obtain ⟨q, x, es, rfl⟩ := h
  exact
    { gpio := fun _ => rfl
      dutyCh := fun n _ => ⟨rfl, hslot (.duty n) (by simp), fun _ => rfl⟩
      dutyEnable := fun _ => rfl
      mcmp := fun _ => ⟨rfl, fun o k => hslot (.mcmp o k) (by simp)⟩
      strm := fun h => absurd rfl h
      now := fun _ => rfl }

theorem staysIn_of_reach_strm {i : Instr} {s t : State} (h : reach i = .strm) (he : exec i s = .next t) :
    StaysIn .strm s t ∧ KeepsOwnFields i s t := by
  obtain ⟨hwrites, hslot⟩ := exec_of_reach_strm_frame h he
  refine ⟨staysIn_of_writesStrmOnly hwrites hslot, ?_⟩
  obtain ⟨q, x, es, rfl⟩ := hwrites
  exact ⟨rfl, rfl, fun _ => rfl⟩

/-- 40_bus_dispatch.md R120: of the operations that reach nothing, only a read writes the word it answers. -/
theorem busData_of_reach_nothing {i : Instr} {s t : State} (h : reach i = .nothing) (he : exec i s = .next t)
    (hread : isRead i = false) : t.busData = s.busData := by
  rcases cases_of_reach_nothing h with hr | hd | ⟨sig, level, param, rfl⟩
  · exact absurd (hread.symm.trans hr) (by simp)
  · cases (exec_of_isDroppedWrite hd s).symm.trans he
    rfl
  · cases he
    rfl

/-- 20_memory.md R62, by what the operation reaches. -/
theorem exec_staysIn {i : Instr} {s t : State} (he : exec i s = .next t) :
    (reach i ≠ .everything → StaysIn (reach i) s t) ∧ KeepsOwnFields i s t := by
  cases hr : reach i with
  | gpio =>
    obtain ⟨g, hg⟩ := exec_of_reach_gpio hr s
    cases hg.symm.trans he
    exact ⟨fun _ => staysIn_of_sched_eq rfl rfl rfl (fun h => absurd rfl h) (fun _ => rfl) (fun _ => rfl) fun _ => rfl,
      rfl, rfl, fun _ => rfl⟩
  | duty n =>
    obtain ⟨hstays, hkeeps⟩ := staysIn_of_reach_duty hr he
    exact ⟨fun _ => hstays, hkeeps⟩
  | dutyLatch =>
    obtain ⟨l, hl⟩ := exec_of_reach_dutyLatch hr s
    cases hl.symm.trans he
    exact ⟨fun _ => staysIn_of_sched_eq rfl rfl rfl (fun _ => rfl) (fun h => absurd rfl h) (fun _ => rfl) fun _ => rfl,
      rfl, rfl, fun _ => rfl⟩
  | mcmp =>
    obtain ⟨hstays, hkeeps⟩ := staysIn_of_reach_mcmp hr he
    exact ⟨fun _ => hstays, hkeeps⟩
  | strm =>
    obtain ⟨hstays, hkeeps⟩ := staysIn_of_reach_strm hr he
    exact ⟨fun _ => hstays, hkeeps⟩
  | clock =>
    obtain ⟨u, rfl⟩ := eq_advance_of_reach_clock hr
    obtain ⟨-, rfl⟩ := exec_advance_next he
    exact ⟨fun _ => staysIn_of_sched_eq rfl rfl rfl (fun _ => rfl) (fun _ => rfl) (fun _ => rfl) fun h => absurd rfl h,
      rfl, rfl, fun _ => rfl⟩
  | nothing =>
    have hbus := busData_of_reach_nothing hr he
    obtain ⟨es, d, rfl⟩ := exec_of_reach_nothing hr he
    exact ⟨fun _ => staysIn_of_sched_eq rfl rfl rfl (fun _ => rfl) (fun _ => rfl) (fun _ => rfl) fun _ => rfl,
      rfl, rfl, hbus⟩
  | everything =>
    cases eq_reset_of_reach_everything hr
    cases he
    exact ⟨fun h => absurd rfl h, rfl, rfl, fun _ => rfl⟩

/-- Settles O55: an operation reaches one part of the block, and stays in it. -/
theorem operationsStayInTheirPeripheral : Obligations.OperationsStayInTheirPeripheral := by
  unfold Obligations.OperationsStayInTheirPeripheral
  intro i s t he
  obtain ⟨hstays, hparams, hinbox, hbus⟩ := exec_staysIn he
  refine ⟨hparams, hinbox, hbus, fun hne => ?_⟩
  obtain ⟨hgpio, hch, hen, hmcmp, hstrm, hnow⟩ := hstays hne
  exact ⟨hgpio, hch, hen, hmcmp, hstrm, hnow⟩

end Sys2Proof.Machine
end

section
/-! PROOF. Writing the same value twice in a row (20_memory.md R68): every procedure of the listed writes is idempotent, and
`STRM.INT_CLEAR` is not (46_stream_waveform.md R287). -/

namespace Sys2Proof.Machine

open Sys2Proof.Safety

/-- 20_memory.md R68: the operation, run again where it led, leads nowhere else. -/
def RepeatsInPlace (i : Instr) : Prop := ∀ s t, exec i s = .next t → exec i t = .next t

theorem repeatsInPlace_of_idem {i : Instr} {f : State → State} (hi : ∀ s, exec i s = .next (f s))
    (hf : ∀ s, f (f s) = f s) : RepeatsInPlace i := by
  intro s t he
  cases (hi s).symm.trans he
  rw [hi, hf]

/-- A write that stores its fields and then runs a procedure: what the procedure does, it does once, and it leaves the
stored fields. -/
theorem repeatsInPlace_of_store {i : Instr} {store run : State → State} (hi : ∀ s, exec i s = .next (run (store s)))
    (hstore : ∀ s, store (run (store s)) = run (store s)) (hrun : ∀ s, run (run s) = run s) : RepeatsInPlace i :=
  repeatsInPlace_of_idem (f := fun s => run (store s)) hi fun s => by rw [hstore, hrun]

/-! `GPIO`. -/

theorem repeatsInPlace_of_gpio {i : Instr} {F : Gpio → Gpio} (hi : ∀ s, exec i s = .next (s.withGpio (F s.gpio)))
    (hF : ∀ g, F (F g) = F g) : RepeatsInPlace i :=
  repeatsInPlace_of_idem hi fun s => congrArg s.withGpio (hF s.gpio)

/-- 30_encoding.md R94: the pin vector after the `_LO` or `_HI` word `v` was stored. -/
def setHalf (hi : Bool) (x : BitVec 49) (v : Word) : BitVec 49 := if hi then setPinsHi x v else setPinsLo x v

theorem setHalf_getLsbD (hi : Bool) (x : BitVec 49) (v : Word) (p : PinIx) :
    (setHalf hi x v).getLsbD p.val = if inHalf hi p then pinBit v p else x.getLsbD p.val := by
  by_cases h : p.val < 32
  · have hmod : p.val % 32 = p.val := Nat.mod_eq_of_lt h
    cases hi with
    | false =>
      rw [if_pos (by simp [inHalf, h]), pinBit, hmod]
      exact (setPinsLo_getLsbD x v p).trans (if_pos h)
    | true =>
      rw [if_neg (by simp [inHalf, h])]
      exact (setPinsHi_getLsbD x v p).trans (if_pos h)
  · have hmod : p.val % 32 = p.val - 32 := by omega
    cases hi with
    | false =>
      rw [if_neg (by simp [inHalf, Nat.le_of_not_lt h])]
      exact (setPinsLo_getLsbD x v p).trans (if_neg h)
    | true =>
      rw [if_pos (by simp [inHalf, Nat.le_of_not_lt h]), pinBit, hmod]
      exact (setPinsHi_getLsbD x v p).trans (if_neg h)

theorem setHalf_setHalf (hi : Bool) (x : BitVec 49) (v : Word) : setHalf hi (setHalf hi x v) v = setHalf hi x v := by
  apply pins_ext
  intro p
  simp only [setHalf_getLsbD]
  split_ifs <;> rfl

/-- The pins of a half, ascending. -/
def halfPins (hi : Bool) : List PinIx := if hi then hiPins else loPins

theorem halfPins_nodup (hi : Bool) : (halfPins hi).Nodup := by
  cases hi
  · exact loPins_nodup
  · exact hiPins_nodup

theorem inHalf_of_mem_halfPins {hi : Bool} {p : PinIx} (h : p ∈ halfPins hi) : inHalf hi p = true := by
  cases hi <;> simpa [halfPins, inHalf] using h

/-- 42_gpio_trigger.md R165: pins that already have the levels do nothing. -/
theorem Gpio.setLevels_of_level_eq {g : Gpio} {ps : List PinIx} {x : BitVec 49}
    (h : ∀ p ∈ ps, g.level.getLsbD p.val = x.getLsbD p.val) : g.setLevels ps x = g := by
  induction ps with
  | nil => rfl
  | cons p ps ih =>
    have hp : g.setLevel p (x.getLsbD p.val) = g := if_pos (h p List.mem_cons_self)
    have hstep : g.setLevels (p :: ps) x = (g.setLevel p (x.getLsbD p.val)).setLevels ps x := rfl
    rw [hstep, hp, ih fun q hq => h q (List.mem_cons_of_mem p hq)]

theorem exec_levelWrite (hi : Bool) (v : Word) (s : State) : exec (levelWrite hi v) s =
    .next (s.withGpio (s.gpio.setLevels (halfPins hi) (setHalf hi s.gpio.level v))) := by
  cases hi <;> rfl

/-- 42_gpio_trigger.md R167, R168. -/
theorem repeatsInPlace_levelWrite (hi : Bool) (v : Word) : RepeatsInPlace (levelWrite hi v) := by
  refine repeatsInPlace_of_gpio (F := fun g => g.setLevels (halfPins hi) (setHalf hi g.level v)) (exec_levelWrite hi v)
    fun g => Gpio.setLevels_of_level_eq fun p hp => ?_
  obtain ⟨-, -, -, hlevel, -⟩ := g.setLevels_spec (halfPins hi) (halfPins_nodup hi) (setHalf hi g.level v)
  rw [hlevel p, if_pos hp, setHalf_getLsbD, setHalf_getLsbD, if_pos (inHalf_of_mem_halfPins hp),
    if_pos (inHalf_of_mem_halfPins hp)]

theorem exec_enableWrite (c : Ctx) (hi : Bool) (v : Word) (s : State) : exec (enableWrite c hi v) s =
    .next (s.withGpio (s.gpio.setLatch c ((s.gpio.latch c).setEnable (setHalf hi (s.gpio.latch c).enable v)))) := by
  cases c <;> cases hi <;> rfl

/-- 41_interrupt_latch.md R142. -/
theorem repeatsInPlace_enableWrite (c : Ctx) (hi : Bool) (v : Word) : RepeatsInPlace (enableWrite c hi v) := by
  refine repeatsInPlace_of_gpio
    (F := fun g => g.setLatch c ((g.latch c).setEnable (setHalf hi (g.latch c).enable v))) (exec_enableWrite c hi v)
    fun g => ?_
  rw [Gpio.setLatch_setLatch, Gpio.latch_setLatch, if_pos rfl, Latch.setEnable_enable, setHalf_setHalf]
  rfl

theorem exec_clearWrite (c : Ctx) (hi : Bool) (v : Word) (s : State) : exec (clearWrite c hi v) s =
    .next (s.withGpio (s.gpio.setLatch c ((s.gpio.latch c).clear (setHalf hi 0 v) s.gpio.stillTrueMask))) := by
  cases c <;> cases hi <;> rfl

/-- 41_interrupt_latch.md R135: what was cleared is clear. -/
theorem Latch.clear_clear {w : Nat} (l : Latch w) (m still : BitVec w) :
    (l.clear m still).clear m still = l.clear m still := by
  unfold Latch.clear
  rw [BitVec.and_assoc, BitVec.and_self]

/-- 41_interrupt_latch.md R143: the first clear leaves the levels and the types by which the second one spares pins. -/
theorem repeatsInPlace_clearWrite (c : Ctx) (hi : Bool) (v : Word) : RepeatsInPlace (clearWrite c hi v) := by
  refine repeatsInPlace_of_gpio
    (F := fun g => g.setLatch c ((g.latch c).clear (setHalf hi 0 v) g.stillTrueMask)) (exec_clearWrite c hi v) fun g => ?_
  rw [Gpio.setLatch_setLatch, Gpio.latch_setLatch, if_pos rfl,
    Gpio.stillTrueMask_congr (g.setLatch_trig c _) (g.setLatch_level c _), Latch.clear_clear]

theorem setPin_setPin (x : BitVec 49) (p : PinIx) (v : Bool) : setPin (setPin x p v) p v = setPin x p v := by
  apply pins_ext
  intro j
  simp only [setPin_getLsbD]
  split_ifs <;> rfl

/-- 42_gpio_trigger.md R169. -/
theorem repeatsInPlace_wGpioPinCfg (p : PinIx) (v : Word) : RepeatsInPlace (.wGpioPinCfg p v) := by
  refine repeatsInPlace_of_gpio (F := fun g => g.setPinCfg p (fieldOf v 0 3) (v.getLsbD 3) (v.getLsbD 4))
    (fun _ => rfl) fun g => ?_
  simp only [Gpio.setPinCfg, Latch.setEnable, vector_set_set, setPin_setPin]

/-- 43_gpio_crossbar.md R186. -/
theorem repeatsInPlace_wGpioOutsel (p : PinIx) (v : Word) : RepeatsInPlace (.wGpioOutsel p v) := by
  refine repeatsInPlace_of_gpio (F := fun g => { g with outsel := Vector.set g.outsel p.val (outSelOf v) })
    (fun _ => rfl) fun g => ?_
  simp only [vector_set_set]

/-- 43_gpio_crossbar.md R187. -/
theorem repeatsInPlace_wGpioInsel (sig : SigIx) (v : Word) : RepeatsInPlace (.wGpioInsel sig v) := by
  refine repeatsInPlace_of_gpio (F := fun g => { g with insel := Vector.set g.insel sig.val (inSelOf v) })
    (fun _ => rfl) fun g => ?_
  simp only [vector_set_set]

/-! `DUTY`. -/

/-- 41_interrupt_latch.md R145. -/
theorem repeatsInPlace_wDutyIntClear (v : Word) : RepeatsInPlace (.wDutyIntClear v) :=
  repeatsInPlace_of_idem (fun _ => rfl) fun s =>
    congrArg (fun l => s.withDuty { s.duty with latch := l }) (s.duty.latch.clear_clear (fieldOf v 0 8) 0)

theorem State.setDutyCh_self (s : State) (n : DutyIx) : s.setDutyCh n (s.dutyCh n) = s := by
  unfold State.setDutyCh State.dutyCh
  rw [vector_set_get]
  rfl

theorem State.dutyCh_dutyPut (s : State) (n : DutyIx) (c : DutyCh) (d : Option Nat) (es : List Event) :
    (s.dutyPut n c d es).dutyCh n = c :=
  (s.dutyCh_setDutyCh n n c).trans (if_pos rfl)

/-- Writing a channel and its slot again with what they were written with, and no event. -/
theorem State.dutyPut_dutyPut_self (s : State) (n : DutyIx) (c : DutyCh) (d : Option Nat) (es : List Event) :
    (s.dutyPut n c d es).dutyPut n c d [] = s.dutyPut n c d es := by
  have hset := (s.dutyPut n c d es).setDutyCh_eq_dutyPut n c
  have hslot : (s.dutyPut n c d es).sched.get (.duty n) = d := by simp [State.dutyPut]
  have hself := (s.dutyPut n c d es).setDutyCh_self n
  rw [State.dutyCh_dutyPut] at hself
  rw [hslot, hself] at hset
  exact hset.symm

/-- A phase that is already there announces nothing. -/
theorem phaseEvents_self (s : State) (sig : Nat) (v : Bool) : phaseEvents s sig v v = [] := if_pos rfl

/-- 44_duty_timer.md R212: a start is over at once, and a second one re-arms at the same deadline. -/
theorem State.dutyStart_dutyStart (s : State) (n : DutyIx) : (s.dutyStart n).dutyStart n = s.dutyStart n := by
  rw [s.dutyStart_eq]
  cases ht : dutyTimes s.params (s.dutyCh n) with
  | none =>
    have ht' : dutyTimes s.params { s.dutyCh n with running := false, phase := false } = none := ht
    dsimp only
    rw [State.dutyStart_eq, State.dutyCh_dutyPut]
    dsimp only [State.dutyPut, State.withTrace_params, State.withSched_params, State.setDutyCh_params]
    rw [ht', phaseEvents_self]
    exact s.dutyPut_dutyPut_self n _ _ _
  | some p =>
    obtain ⟨on, off⟩ := p
    have ht' : dutyTimes s.params { s.dutyCh n with running := true, phase := true } = some (on, off) := ht
    dsimp only
    rw [State.dutyStart_eq, State.dutyCh_dutyPut]
    dsimp only [State.dutyPut, State.withTrace_params, State.withSched_params, State.setDutyCh_params]
    rw [ht', phaseEvents_self]
    exact s.dutyPut_dutyPut_self n _ _ _

/-- 44_duty_timer.md R213. -/
theorem State.dutyStop_dutyStop (s : State) (n : DutyIx) : (s.dutyStop n).dutyStop n = s.dutyStop n := by
  rw [s.dutyStop_eq, State.dutyStop_eq, State.dutyCh_dutyPut, phaseEvents_self]
  exact s.dutyPut_dutyPut_self n _ _ _

/-- The channel is as before but for its hidden `running` and `phase` (10_state.md R36). -/
def SameFields (c c' : DutyCh) : Prop := ∃ r ph, c' = { c with running := r, phase := ph }

theorem State.sameFields_dutyStart (s : State) (n : DutyIx) : SameFields (s.dutyCh n) ((s.dutyStart n).dutyCh n) := by
  rw [State.dutyStart_eq]
  cases dutyTimes s.params (s.dutyCh n) with
  | none => exact ⟨false, false, s.dutyCh_dutyPut n _ _ _⟩
  | some p => exact ⟨true, true, s.dutyCh_dutyPut n _ _ _⟩

theorem State.sameFields_dutyStop (s : State) (n : DutyIx) : SameFields (s.dutyCh n) ((s.dutyStop n).dutyCh n) := by
  rw [State.dutyStop_eq]
  exact ⟨false, false, s.dutyCh_dutyPut n _ _ _⟩

theorem SameFields.en {c c' : DutyCh} (h : SameFields c c') : c'.en = c.en := by
  obtain ⟨r, ph, rfl⟩ := h
  rfl

/-- Fields stored before a procedure that leaves them are stored already. -/
theorem State.setDutyCh_of_sameFields {s t : State} {n : DutyIx} {F : DutyCh → DutyCh}
    (hF : ∀ c r ph, F { F c with running := r, phase := ph } = { F c with running := r, phase := ph })
    (h : SameFields ((s.setDutyCh n (F (s.dutyCh n))).dutyCh n) (t.dutyCh n)) : t.setDutyCh n (F (t.dutyCh n)) = t := by
  obtain ⟨r, ph, hc⟩ := h
  rw [State.dutyCh_setDutyCh, if_pos rfl] at hc
  have hstored : F (t.dutyCh n) = t.dutyCh n := by rw [hc, hF]
  rw [hstored, State.setDutyCh_self]

/-- 44_duty_timer.md R216: what a `CHn_CONF` write does with the stored fields. -/
def State.dutyApply (s : State) (n : DutyIx) : State := if (s.dutyCh n).en then s.dutyStart n else s.dutyStop n

theorem State.sameFields_dutyApply (s : State) (n : DutyIx) : SameFields (s.dutyCh n) ((s.dutyApply n).dutyCh n) := by
  unfold State.dutyApply
  split_ifs
  · exact s.sameFields_dutyStart n
  · exact s.sameFields_dutyStop n

theorem State.dutyApply_dutyApply (s : State) (n : DutyIx) : (s.dutyApply n).dutyApply n = s.dutyApply n := by
  by_cases hen : (s.dutyCh n).en = true
  · have hstart : s.dutyApply n = s.dutyStart n := if_pos hen
    have hen' : ((s.dutyStart n).dutyCh n).en = true := (s.sameFields_dutyStart n).en.trans hen
    rw [hstart]
    exact (if_pos hen').trans (s.dutyStart_dutyStart n)
  · have hstop : s.dutyApply n = s.dutyStop n := if_neg hen
    have hen' : ¬ ((s.dutyStop n).dutyCh n).en = true := (s.sameFields_dutyStop n).en ▸ hen
    rw [hstop]
    exact (if_neg hen').trans (s.dutyStop_dutyStop n)

/-- 44_duty_timer.md R217: what a `CHn_DUTY` write does with the stored count. -/
def State.dutyRefresh (s : State) (n : DutyIx) : State := if (s.dutyCh n).running then s.dutyStart n else s

theorem State.sameFields_dutyRefresh (s : State) (n : DutyIx) : SameFields (s.dutyCh n) ((s.dutyRefresh n).dutyCh n) := by
  unfold State.dutyRefresh
  split_ifs
  · exact s.sameFields_dutyStart n
  · exact ⟨_, _, rfl⟩

theorem State.dutyRefresh_dutyRefresh (s : State) (n : DutyIx) : (s.dutyRefresh n).dutyRefresh n = s.dutyRefresh n := by
  by_cases hr : (s.dutyCh n).running = true
  · have hstart : s.dutyRefresh n = s.dutyStart n := if_pos hr
    rw [hstart]
    unfold State.dutyRefresh
    split_ifs
    · exact s.dutyStart_dutyStart n
    · rfl
  · have hkeep : s.dutyRefresh n = s := if_neg hr
    rw [hkeep, hkeep]

/-- 44_duty_timer.md R216. -/
theorem repeatsInPlace_wDutyChConf (n : DutyIx) (v : Word) : RepeatsInPlace (.wDutyChConf n v) :=
  repeatsInPlace_of_store (store := fun s => s.setDutyCh n (setDutyConf (s.dutyCh n) v)) (run := fun s => s.dutyApply n)
    (fun _ => rfl) (fun _ => State.setDutyCh_of_sameFields (F := (setDutyConf · v)) (fun _ _ _ => rfl)
      (State.sameFields_dutyApply _ n)) fun s => s.dutyApply_dutyApply n

/-- 44_duty_timer.md R217. -/
theorem repeatsInPlace_wDutyChDuty (n : DutyIx) (v : Word) : RepeatsInPlace (.wDutyChDuty n v) :=
  repeatsInPlace_of_store (store := fun s => s.setDutyCh n { s.dutyCh n with duty := v }) (run := fun s => s.dutyRefresh n)
    (fun _ => rfl) (fun _ => State.setDutyCh_of_sameFields (F := fun c => { c with duty := v }) (fun _ _ _ => rfl)
      (State.sameFields_dutyRefresh _ n)) fun s => s.dutyRefresh_dutyRefresh n

/-- 44_duty_timer.md R218. -/
theorem repeatsInPlace_wDutyChFade (n : DutyIx) (v : Word) : RepeatsInPlace (.wDutyChFade n v) := by
  refine repeatsInPlace_of_idem (f := fun s => s.setDutyCh n
    { setDutyFade (s.dutyCh n) v with remain := (setDutyFade (s.dutyCh n) v).num, cyc := 0 }) (fun _ => rfl) fun s => ?_
  simp only [State.dutyCh_setDutyCh, if_true, State.setDutyCh_setDutyCh]
  rfl

/-! `MCMP`. -/

theorem State.setMcmpOp_setMcmpOp (s : State) (o : OpIx) (x y : Oper) :
    (s.setMcmpOp o x).setMcmpOp o y = s.setMcmpOp o y := by
  simp only [State.setMcmpOp, State.withMcmp, vector_set_set]

theorem State.setMcmpOp_self (s : State) (o : OpIx) : s.setMcmpOp o (s.mcmpOp o) = s := by
  unfold State.setMcmpOp State.mcmpOp
  rw [vector_set_get]
  rfl

/-- 45_multi_timer_compare.md R246: arming leaves the operators. -/
theorem State.mcmpOp_mcmpArm (s : State) (o o' : OpIx) (k : OutIx) (x : Cmp) :
    (s.mcmpArm o k x).mcmpOp o' = s.mcmpOp o' := by
  rw [State.mcmpArm_eq]
  cases s.mcmpTimes o x <;> rfl

/-- 45_multi_timer_compare.md R243. -/
theorem repeatsInPlace_wMcmpTmrCfg (m : TmrIx) (v : Word) : RepeatsInPlace (.wMcmpTmrCfg m v) := by
  refine repeatsInPlace_of_idem
    (f := fun s => s.withMcmp { s.mcmp with tmr := Vector.set s.mcmp.tmr m.val (tmrOf v) }) (fun _ => rfl) fun s => ?_
  simp only [State.withMcmp_mcmp, vector_set_set]
  rfl

/-- 45_multi_timer_compare.md R244. -/
theorem repeatsInPlace_wMcmpOpMode (o : OpIx) (v : Word) : RepeatsInPlace (.wMcmpOpMode o v) := by
  refine repeatsInPlace_of_idem
    (f := fun s => s.setMcmpOp o { s.mcmpOp o with aSwap := v.getLsbD 0, bSwap := v.getLsbD 1 }) (fun _ => rfl) fun s => ?_
  simp only [State.mcmpOp_setMcmpOp, if_true, State.setMcmpOp_setMcmpOp]

/-- 45_multi_timer_compare.md R250, R251: the second write finds its own value stored, and so arms nothing. -/
theorem repeatsInPlace_compare {i : Instr} {o : OpIx} {F : Oper → Oper} {k : Oper → OutIx} {y : Cmp} {p : Oper → Prop}
    [DecidablePred p] (hi : ∀ s, exec i s = .next (if p (s.mcmpOp o) then
      (s.setMcmpOp o (F (s.mcmpOp o))).mcmpArm o (k (s.mcmpOp o)) y else s.setMcmpOp o (F (s.mcmpOp o))))
    (hF : ∀ x, F (F x) = F x) (hp : ∀ x, ¬ p (F x)) : RepeatsInPlace i := by
  intro s t he
  have hop : t.mcmpOp o = F (s.mcmpOp o) := by
    cases (hi s).symm.trans he
    split_ifs <;> simp [State.mcmpOp_mcmpArm]
  rw [hi t, hop, if_neg (hp _), hF, ← hop, State.setMcmpOp_self]

theorem repeatsInPlace_wMcmpOpCmpa (o : OpIx) (v : Word) : RepeatsInPlace (.wMcmpOpCmpa o v) :=
  repeatsInPlace_compare (F := fun x => { x with cmpa := fieldOf v 0 16 }) (k := (Oper.outOf · .a)) (y := .a)
    (p := fun x => fieldOf v 0 16 ≠ 0 ∧ fieldOf v 0 16 ≠ x.cmpa) (fun _ => rfl) (fun _ => rfl) fun _ h => h.2 rfl

theorem repeatsInPlace_wMcmpOpCmpb (o : OpIx) (v : Word) : RepeatsInPlace (.wMcmpOpCmpb o v) :=
  repeatsInPlace_compare (F := fun x => { x with cmpb := fieldOf v 0 16 }) (k := (Oper.outOf · .b)) (y := .b)
    (p := fun x => fieldOf v 0 16 ≠ 0 ∧ fieldOf v 0 16 ≠ x.cmpb) (fun _ => rfl) (fun _ => rfl) fun _ h => h.2 rfl

/-! `STRM`. -/

/-- 46_stream_waveform.md R286. -/
theorem repeatsInPlace_wStrmRam (n : StrmIx) (j : RingIx) (v : Word) : RepeatsInPlace (.wStrmRam n j v) := by
  refine repeatsInPlace_of_idem
    (f := fun s => s.setStrmCh n { s.strmCh n with ring := Vector.set (s.strmCh n).ring j.val v }) (fun _ => rfl) fun s => ?_
  simp only [State.strmCh_setStrmCh, if_true, State.setStrmCh_setStrmCh, vector_set_set]

/-- 46_stream_waveform.md R278, R285: the channel stopped, its slot emptied, its fields stored. -/
theorem State.strmStored_eq (s : State) (n : StrmIx) (v : Word) : s.strmStored n v =
    (s.setStrmCh n { setStrmConf (s.strmCh n) v with running := false, pending := false }).withSched
      (s.sched.set (.strm n) none) := by
  unfold State.strmStored State.strmStop
  rw [State.setStrmCh_setStrmCh, State.strmCh_setStrmCh, if_pos rfl]
  rfl

theorem State.setStrmCh_self (s : State) (n : StrmIx) : s.setStrmCh n (s.strmCh n) = s := by
  unfold State.setStrmCh State.strmCh
  rw [vector_set_get]
  rfl

theorem State.strmStored_strmStored (s : State) (n : StrmIx) (v : Word) :
    (s.strmStored n v).strmStored n v = s.strmStored n v := by
  have hfields : { setStrmConf ((s.strmStored n v).strmCh n) v with running := false, pending := false } =
      (s.strmStored n v).strmCh n := by
    rw [s.strmStored_ch]
    rfl
  have hslot : (s.strmStored n v).sched.set (.strm n) none = (s.strmStored n v).sched := by
    rw [s.strmStored_eq, State.withSched_sched, Sched.set_set]
  rw [(s.strmStored n v).strmStored_eq, hfields, hslot, State.setStrmCh_self]
  rfl

/-- 46_stream_waveform.md R285 with `EN` 0: the channel is stopped and its fields are stored. -/
theorem exec_wStrmChConf_of_not_en (n : StrmIx) {v : Word} (hv : v.getLsbD 31 = false) (s : State) :
    exec (.wStrmChConf n v) s = .next (s.strmStored n v) := by
  have hen : ((s.strmStored n v).strmCh n).en = false := by rw [s.strmStored_ch]; exact hv
  rw [exec_wStrmChConf, hen, if_neg Bool.false_ne_true]

theorem repeatsInPlace_wStrmChConf (n : StrmIx) {v : Word} (hv : v.getLsbD 31 = false) :
    RepeatsInPlace (.wStrmChConf n v) :=
  repeatsInPlace_of_idem (exec_wStrmChConf_of_not_en n hv) fun s => s.strmStored_strmStored n v

/-- Stream channel 0 owes an emission that its threshold bit blocks, and the word under its cursor is a sentinel. -/
def owingState : State :=
  (State.reset.withStrm { Strm.atReset with latch := ⟨0x0100, 0⟩ }).setStrmCh 0
    { StrmCh.atReset with div := 1, burst := 1, en := true, running := true, pending := true }

/-- 46_stream_waveform.md R287: the first clear of both bits of channel 0 runs the owed tick, which latches completion; the
second one clears that. -/
theorem strmIntClear_not_repeatsInPlace : ∃ t u, exec (.wStrmIntClear 0x0101) owingState = .next t ∧
    exec (.wStrmIntClear 0x0101) t = .next u ∧ u ≠ t := by
  refine ⟨_, _, exec_wStrmIntClear _ _, exec_wStrmIntClear _ _, fun h => ?_⟩
  exact absurd (congrArg (fun s => s.strm.latch.raw) h) (by decide +kernel)

/-- Settles O59, register by register. -/
theorem repeatedWritesAreIdempotent : Obligations.RepeatedWritesAreIdempotent := by
  unfold Obligations.RepeatedWritesAreIdempotent
  refine ⟨fun s t v hi c p sig n o m r i hmem => ?_, fun s t v m hv => repeatsInPlace_wStrmChConf m hv s t, ?_⟩
  · revert s t
    show RepeatsInPlace i
    simp only [List.mem_cons, List.not_mem_nil, or_false] at hmem
    rcases hmem with rfl | rfl | rfl | rfl | rfl | rfl | rfl | rfl | rfl | rfl | rfl | rfl | rfl | rfl | rfl | rfl | rfl
    · exact repeatsInPlace_levelWrite hi v
    · exact repeatsInPlace_enableWrite c hi v
    · exact repeatsInPlace_clearWrite c hi v
    · exact repeatsInPlace_wGpioPinCfg p v
    · exact repeatsInPlace_wGpioOutsel p v
    · exact repeatsInPlace_wGpioInsel sig v
    · exact repeatsInPlace_of_idem (fun _ => rfl) fun _ => rfl
    · exact repeatsInPlace_wDutyIntClear v
    · exact repeatsInPlace_wDutyChConf n v
    · exact repeatsInPlace_wDutyChDuty n v
    · exact repeatsInPlace_wDutyChFade n v
    · exact repeatsInPlace_wMcmpTmrCfg o v
    · exact repeatsInPlace_wMcmpOpMode o v
    · exact repeatsInPlace_wMcmpOpCmpa o v
    · exact repeatsInPlace_wMcmpOpCmpb o v
    · exact repeatsInPlace_wStrmRam m r v
    · exact repeatsInPlace_of_idem (fun _ => rfl) fun _ => rfl
  · obtain ⟨t, u, ht, hu, hne⟩ := strmIntClear_not_repeatsInPlace
    exact ⟨owingState, t, u, 0x0101, inv_of_check (by decide +kernel), ht, hu, hne⟩

end Sys2Proof.Machine
end

section
/-! PROOF. What the block reads of its parameters (00_scope.md R8): the clocks, the signal bases and, for the event of a
transferred word, the attached sinks (46_stream_waveform.md R284). Two states apart in other parameters stay so. -/

namespace Sys2Proof.Machine

open Sys2Proof.Safety

/-! States that differ in parameters. -/

/-- The parameters agree in everything an operation reads, the sinks by what `view` keeps of their events. -/
structure ReadAlike (view : Event → Event) (p p' : Params) : Prop where
  dutyClkHz0 : p'.dutyClkHz0 = p.dutyClkHz0
  dutyClkHz1 : p'.dutyClkHz1 = p.dutyClkHz1
  mcmpClkHz : p'.mcmpClkHz = p.mcmpClkHz
  strmClkHz : p'.strmClkHz = p.strmClkHz
  dutySigBase : p'.dutySigBase = p.dutySigBase
  mcmpSigBase : p'.mcmpSigBase = p.mcmpSigBase
  transfer : ∀ n item, view (transferEvent p' n item) = view (transferEvent p n item)

/-- The state under other parameters, with another trace. -/
def State.under (s : State) (p : Params) (tr : List Event) : State := { s with params := p, trace := tr }

/-- The states are the same but for parameters that read alike and events that `view` does not tell apart. -/
def Alike (view : Event → Event) (s s' : State) : Prop :=
  ∃ p tr, s' = s.under p tr ∧ ReadAlike view s.params p ∧ tr.map view = s.trace.map view

/-- The procedure leads states that are alike to states that are alike. -/
def KeepsAlike (view : Event → Event) (f : State → State) : Prop := ∀ s s', Alike view s s' → Alike view (f s) (f s')

section Procedures

variable {view : Event → Event}

/-- What reads and writes neither the parameters nor the trace. -/
theorem keepsAlike_of_blind {f : State → State} (hp : ∀ s, (f s).params = s.params) (ht : ∀ s, (f s).trace = s.trace)
    (hf : ∀ s p tr, f (s.under p tr) = (f s).under p tr) : KeepsAlike view f := by
  rintro s s' ⟨p, tr, rfl, hread, htrace⟩
  exact ⟨p, tr, hf s p tr, by rw [hp]; exact hread, by rw [ht]; exact htrace⟩

theorem KeepsAlike.comp {f g : State → State} (hf : KeepsAlike view f) (hg : KeepsAlike view g) :
    KeepsAlike view (fun s => g (f s)) := fun s s' h => hg _ _ (hf s s' h)

/-- A procedure may choose by what is the same in states that are alike. -/
theorem KeepsAlike.ite {f g : State → State} {c : State → Prop} [DecidablePred c]
    (hc : ∀ s s', Alike view s s' → (c s' ↔ c s)) (hf : KeepsAlike view f) (hg : KeepsAlike view g) :
    KeepsAlike view (fun s => if c s then f s else g s) := by
  intro s s' h
  simp only [hc s s' h]
  split_ifs
  · exact hf s s' h
  · exact hg s s' h

/-- What neither the parameters nor the trace decide. -/
theorem alike_iff_of_blind {c : State → Prop} (hc : ∀ s p tr, c (State.under s p tr) ↔ c s) {s s' : State}
    (h : Alike view s s') : c s' ↔ c s := by
  obtain ⟨p, tr, rfl, -, -⟩ := h
  exact hc s p tr

/-- A procedure may choose by what reads neither the parameters nor the trace. -/
theorem KeepsAlike.ite_blind {f g : State → State} {c : State → Prop} [DecidablePred c]
    (hc : ∀ s p tr, c (State.under s p tr) ↔ c s) (hf : KeepsAlike view f) (hg : KeepsAlike view g) :
    KeepsAlike view (fun s => if c s then f s else g s) := .ite (fun _ _ h => alike_iff_of_blind hc h) hf hg

theorem keepsAlike_id : KeepsAlike view (fun s => s) := fun _ _ h => h

theorem keepsAlike_foldl {α : Type} {f : State → α → State} (hf : ∀ a, KeepsAlike view (fun s => f s a)) (as : List α) :
    KeepsAlike view (fun s => as.foldl f s) := by
  induction as with
  | nil => exact keepsAlike_id
  | cons a as ih => exact (hf a).comp ih

/-- The same events appended to both traces. -/
theorem map_append_same {tr tr' : List Event} (h : tr'.map view = tr.map view) (es : List Event) :
    (tr' ++ es).map view = (tr ++ es).map view := by
  rw [List.map_append, List.map_append, h]

/-! The duty engine. -/

theorem ReadAlike.dutyTimes_eq {p p' : Params} (h : ReadAlike view p p') (c : DutyCh) :
    dutyTimes p' c = dutyTimes p c := by
  unfold dutyTimes dutyClk
  rw [h.dutyClkHz0, h.dutyClkHz1]

theorem keepsAlike_setDutyCh (n : DutyIx) (F : DutyCh → DutyCh) :
    KeepsAlike view (fun s => s.setDutyCh n (F (s.dutyCh n))) :=
  keepsAlike_of_blind (fun _ => rfl) (fun _ => rfl) fun _ _ _ => rfl

/-- The same channel, slot and events written in both states. -/
theorem alike_dutyPut {s : State} {p : Params} {tr : List Event} (hread : ReadAlike view s.params p)
    (htrace : tr.map view = s.trace.map view) (n : DutyIx) (c : DutyCh) (d : Option Nat) (es : List Event) :
    Alike view (s.dutyPut n c d es) ((s.under p tr).dutyPut n c d es) :=
  ⟨p, tr ++ es, rfl, hread, map_append_same htrace es⟩

theorem keepsAlike_dutyStart (n : DutyIx) : KeepsAlike view (fun s => s.dutyStart n) := by
  rintro s s' ⟨p, tr, rfl, hread, htrace⟩
  have htimes : dutyTimes (s.under p tr).params ((s.under p tr).dutyCh n) = dutyTimes s.params (s.dutyCh n) :=
    hread.dutyTimes_eq _
  have hsig : (s.under p tr).params.dutySigBase = s.params.dutySigBase := hread.dutySigBase
  simp only [State.dutyStart_eq, htimes, hsig]
  cases dutyTimes s.params (s.dutyCh n) with
  | none => exact alike_dutyPut hread htrace n _ _ _
  | some _ => exact alike_dutyPut hread htrace n _ _ _

theorem keepsAlike_dutyStop (n : DutyIx) : KeepsAlike view (fun s => s.dutyStop n) := by
  rintro s s' ⟨p, tr, rfl, hread, htrace⟩
  have hsig : (s.under p tr).params.dutySigBase = s.params.dutySigBase := hread.dutySigBase
  simp only [State.dutyStop_eq, hsig]
  exact alike_dutyPut hread htrace n _ _ _

theorem keepsAlike_dutyFire (n : DutyIx) : KeepsAlike view (fun s => s.dutyFire n) := by
  rintro s s' ⟨p, tr, rfl, hread, htrace⟩
  have htimes : dutyTimes (s.under p tr).params (toggledCh ((s.under p tr).dutyCh n)) =
      dutyTimes s.params (toggledCh (s.dutyCh n)) := hread.dutyTimes_eq _
  have hsig : (s.under p tr).params.dutySigBase = s.params.dutySigBase := hread.dutySigBase
  simp only [State.dutyFire_eq, htimes, hsig]
  cases dutyTimes s.params (toggledCh (s.dutyCh n)) with
  | none => exact ⟨p, _, rfl, hread, map_append_same htrace _⟩
  | some _ => exact ⟨p, _, rfl, hread, map_append_same htrace _⟩

/-! The compare engine. -/

theorem keepsAlike_setMcmpOp (o : OpIx) (F : Oper → Oper) :
    KeepsAlike view (fun s => s.setMcmpOp o (F (s.mcmpOp o))) :=
  keepsAlike_of_blind (fun _ => rfl) (fun _ => rfl) fun _ _ _ => rfl

theorem State.mcmpTimes_under (s : State) {p : Params} (tr : List Event) (hread : ReadAlike view s.params p) (o : OpIx)
    (x : Cmp) : (s.under p tr).mcmpTimes o x = s.mcmpTimes o x := by
  have hclk : (s.under p tr).params.mcmpClkHz = s.params.mcmpClkHz := hread.mcmpClkHz
  unfold State.mcmpTimes
  rw [hclk]
  rfl

theorem keepsAlike_mcmpArm (o : OpIx) (k : OutIx) (x : Cmp) : KeepsAlike view (fun s => s.mcmpArm o k x) := by
  rintro s s' ⟨p, tr, rfl, hread, htrace⟩
  have hsig : (s.under p tr).params.mcmpSigBase = s.params.mcmpSigBase := hread.mcmpSigBase
  simp only [State.mcmpArm_eq, s.mcmpTimes_under tr hread, hsig]
  cases s.mcmpTimes o x with
  | none => exact ⟨p, _, rfl, hread, map_append_same htrace _⟩
  | some _ => exact ⟨p, _, rfl, hread, map_append_same htrace _⟩

/-- 45_multi_timer_compare.md R250, R251. -/
theorem keepsAlike_compare (o : OpIx) (F : Oper → Oper) (k : Oper → OutIx) (y : Cmp) (c : Oper → Prop)
    [DecidablePred c] : KeepsAlike view (fun s =>
      if c (s.mcmpOp o) then (s.setMcmpOp o (F (s.mcmpOp o))).mcmpArm o (k (s.mcmpOp o)) y
      else s.setMcmpOp o (F (s.mcmpOp o))) := by
  have harm : KeepsAlike view (fun s => (s.setMcmpOp o (F (s.mcmpOp o))).mcmpArm o (k (s.mcmpOp o)) y) := by
    intro s s' h
    have hop : s'.mcmpOp o = s.mcmpOp o := by obtain ⟨p, tr, rfl, -, -⟩ := h; rfl
    have := ((keepsAlike_setMcmpOp o F).comp (keepsAlike_mcmpArm o (k (s.mcmpOp o)) y)) s s' h
    dsimp only at this ⊢
    rw [hop] at this ⊢
    exact this
  exact .ite_blind (c := fun s => c (s.mcmpOp o)) (fun _ _ _ => .rfl) harm
    (keepsAlike_setMcmpOp o F)

theorem keepsAlike_mcmpFire (o : OpIx) (k : OutIx) : KeepsAlike view (fun s => s.mcmpFire o k) := by
  rintro s s' ⟨p, tr, rfl, hread, htrace⟩
  have hsig : (s.under p tr).params.mcmpSigBase = s.params.mcmpSigBase := hread.mcmpSigBase
  have hout : (s.under p tr).mcmpOut o k = s.mcmpOut o k := rfl
  simp only [State.mcmpFire_eq, hout, s.mcmpTimes_under tr hread, hsig]
  cases s.mcmpTimes o (s.mcmpOut o k).src with
  | none => exact ⟨p, _, rfl, hread, map_append_same htrace _⟩
  | some _ => exact ⟨p, _, rfl, hread, map_append_same htrace _⟩

/-! The streaming engine. -/

theorem ReadAlike.bitTime_eq {p p' : Params} (h : ReadAlike view p p') (c : StrmCh) : bitTime p' c = bitTime p c := by
  unfold bitTime
  rw [h.strmClkHz]

theorem ReadAlike.runnable_eq {p p' : Params} (h : ReadAlike view p p') (c : StrmCh) : runnable p' c = runnable p c := by
  unfold runnable
  rw [h.bitTime_eq, h.strmClkHz]

theorem keepsAlike_setStrmCh (n : StrmIx) (F : StrmCh → StrmCh) :
    KeepsAlike view (fun s => s.setStrmCh n (F (s.strmCh n))) :=
  keepsAlike_of_blind (fun _ => rfl) (fun _ => rfl) fun _ _ _ => rfl

theorem keepsAlike_cancel (tok : Token) : KeepsAlike view (fun s => s.cancel tok) :=
  keepsAlike_of_blind (fun _ => rfl) (fun _ => rfl) fun _ _ _ => rfl

/-- 46_stream_waveform.md R284: the one event that depends on an attached sink. -/
theorem keepsAlike_strmSend (n : StrmIx) : KeepsAlike view (fun s => s.strmSend n) := by
  rintro s s' ⟨p, tr, rfl, hread, htrace⟩
  refine ⟨p, _, rfl, hread, ?_⟩
  show (tr ++ [transferEvent p n _]).map view = (s.trace ++ [transferEvent s.params n _]).map view
  rw [List.map_append, List.map_append, htrace, List.map_singleton, List.map_singleton, hread.transfer]
  rfl

/-- 46_stream_waveform.md R280: the burst loop, word by word. -/
theorem keepsAlike_strmBurst (n : StrmIx) (k : Nat) : KeepsAlike view (fun s => s.strmBurst n k) := by
  induction k with
  | zero =>
    rintro s s' ⟨p, tr, rfl, hread, htrace⟩
    refine ⟨p, tr, ?_, hread, htrace⟩
    have hbit : bitTime (s.under p tr).params ((s.under p tr).strmCh n) = bitTime s.params (s.strmCh n) :=
      hread.bitTime_eq _
    simp only [State.strmBurst, hbit]
    rfl
  | succ k ih =>
    have hcomplete : KeepsAlike view (fun s => s.strmComplete n) :=
      keepsAlike_of_blind (fun _ => rfl) (fun _ => rfl) fun _ _ _ => rfl
    exact .ite_blind (c := fun s => isSentinel (s.strmCh n).fetch = true) (fun _ _ _ => .rfl)
      hcomplete ((keepsAlike_strmSend n).comp ih)

theorem keepsAlike_drain (n : StrmIx) : KeepsAlike view (fun s => s.drain n) := by
  have hburst : KeepsAlike view (fun s => s.strmBurst n (s.strmCh n).burst.toNat) := by
    intro s s' h
    have hch : s'.strmCh n = s.strmCh n := by obtain ⟨p, tr, rfl, -, -⟩ := h; rfl
    simp only [hch]
    exact keepsAlike_strmBurst n _ s s' h
  have hrun : KeepsAlike view (fun s => if s.strmBlocked n then s.setStrmCh n { s.strmCh n with pending := true }
      else s.strmBurst n (s.strmCh n).burst.toNat) :=
    .ite_blind (c := fun s => s.strmBlocked n = true) (fun _ _ _ => .rfl)
      (keepsAlike_setStrmCh n fun c => { c with pending := true }) hburst
  exact .ite_blind (c := fun s => (s.strmCh n).running = true) (fun _ _ _ => .rfl) hrun
    keepsAlike_id

theorem keepsAlike_strmStart (n : StrmIx) : KeepsAlike view (fun s => s.strmStart n) := by
  refine KeepsAlike.ite
    (c := fun s => runnable s.params { s.strmCh n with cursor := 0, sent := 0, pending := false } = true)
    ?_ ((keepsAlike_setStrmCh n fun c =>
      { c with cursor := 0, sent := 0, pending := false, running := true }).comp (keepsAlike_drain n))
    (keepsAlike_setStrmCh n fun c => { c with cursor := 0, sent := 0, pending := false, running := false })
  rintro s s' ⟨p, tr, rfl, hread, -⟩
  exact Eq.congr_left (hread.runnable_eq _)

theorem keepsAlike_strmResume (n : StrmIx) : KeepsAlike view (fun s => s.strmResume n) :=
  .ite_blind (c := fun s => (s.strmCh n).running = true ∧ (s.strmCh n).pending = true ∧ ¬ s.strmBlocked n = true)
    (fun _ _ _ => .rfl)
    ((keepsAlike_setStrmCh n fun c => { c with pending := false }).comp (keepsAlike_drain n)) keepsAlike_id

end Procedures

/-! Operations. -/

/-- Where the operation completes it completes in every state that is alike, and leads to one that is alike. -/
def ReadsOnlyItsParams (view : Event → Event) (i : Instr) : Prop :=
  ∀ s s' t, Alike view s s' → exec i s = .next t → ∃ t', exec i s' = .next t' ∧ Alike view t t'

section Operations

variable {view : Event → Event}

theorem KeepsAlike.readsOnlyItsParams {i : Instr} {f : State → State} (hf : KeepsAlike view f)
    (hi : ∀ s, exec i s = .next (f s)) :
    ReadsOnlyItsParams view i := by
  intro s s' t h he
  cases (hi s).symm.trans he
  exact ⟨f s', hi s', hf s s' h⟩

/-- 47_virtual_clock.md R302, R303: an operation with an enabling condition, which reads no parameter. -/
theorem KeepsAlike.readsOnlyItsParams_guarded {i : Instr} {f : State → State} (hf : KeepsAlike view f)
    {c : State → Bool} {r : Refusal}
    (hc : ∀ s p tr, c (State.under s p tr) = c s) (hi : ∀ s, exec i s = if c s then .next (f s) else .refused r) :
    ReadsOnlyItsParams view i := by
  intro s s' t h he
  rw [hi] at he
  obtain ⟨hs, rfl⟩ := next_of_guarded he
  have hs' : c s' = true := (alike_iff_of_blind (c := fun s => c s = true) (fun s p tr => by rw [hc]) h).mpr hs
  exact ⟨f s', (hi s').trans (if_pos hs'), hf s s' h⟩

/-- What reads and writes neither the parameters nor the trace. -/
theorem readsOnlyItsParams_of_blind {i : Instr} (hi : ∀ s, ∃ t, exec i s = .next t ∧ t.params = s.params ∧
    t.trace = s.trace ∧ ∀ p tr, exec i (s.under p tr) = .next (t.under p tr)) : ReadsOnlyItsParams view i := by
  rintro s s' t ⟨p, tr, rfl, hread, htrace⟩ he
  obtain ⟨u, hu, hp, ht, hunder⟩ := hi s
  cases hu.symm.trans he
  exact ⟨_, hunder p tr, p, tr, rfl, hp ▸ hread, ht ▸ htrace⟩

theorem readsOnlyItsParams_of_reach_nothing {i : Instr} (h : reach i = .nothing) : ReadsOnlyItsParams view i := by
  rcases cases_of_reach_nothing h with hr | hd | ⟨sig, level, param, rfl⟩
  · refine readsOnlyItsParams_of_blind fun s => ?_
    cases i <;> cases hr <;> exact ⟨_, rfl, rfl, rfl, fun _ _ => rfl⟩
  · exact keepsAlike_id.readsOnlyItsParams (exec_of_isDroppedWrite hd)
  · refine KeepsAlike.readsOnlyItsParams (f := fun s => s.announce sig.val level param) ?_ fun _ => rfl
    rintro s s' ⟨p, tr, rfl, hread, htrace⟩
    exact ⟨p, _, rfl, hread, map_append_same htrace _⟩

theorem readsOnlyItsParams_of_reach_gpio {i : Instr} (h : reach i = .gpio) : ReadsOnlyItsParams view i := by
  refine readsOnlyItsParams_of_blind fun s => ?_
  cases i <;> cases h <;> exact ⟨_, rfl, rfl, rfl, fun _ _ => rfl⟩

theorem readsOnlyItsParams_of_reach_dutyLatch {i : Instr} (h : reach i = .dutyLatch) : ReadsOnlyItsParams view i := by
  refine readsOnlyItsParams_of_blind fun s => ?_
  cases i <;> cases h <;> exact ⟨_, rfl, rfl, rfl, fun _ _ => rfl⟩

theorem readsOnlyItsParams_of_reach_duty {i : Instr} {n : DutyIx} (h : reach i = .duty n) :
    ReadsOnlyItsParams view i := by
  match i, h with
  | .wDutyChConf m v, _ =>
    have hchoose : KeepsAlike view (fun s => if (s.dutyCh m).en then s.dutyStart m else s.dutyStop m) :=
      .ite_blind (c := fun s => (s.dutyCh m).en = true) (fun _ _ _ => .rfl)
        (keepsAlike_dutyStart m) (keepsAlike_dutyStop m)
    exact ((keepsAlike_setDutyCh m (setDutyConf · v)).comp hchoose).readsOnlyItsParams fun _ => rfl
  | .wDutyChDuty m v, _ =>
    have hchoose : KeepsAlike view (fun s => if (s.dutyCh m).running then s.dutyStart m else s) :=
      .ite_blind (c := fun s => (s.dutyCh m).running = true) (fun _ _ _ => .rfl)
        (keepsAlike_dutyStart m) keepsAlike_id
    exact ((keepsAlike_setDutyCh m fun c => { c with duty := v }).comp hchoose).readsOnlyItsParams fun _ => rfl
  | .wDutyChFade m v, _ => exact readsOnlyItsParams_of_blind fun _ => ⟨_, rfl, rfl, rfl, fun _ _ => rfl⟩
  | .fireDuty m, _ => exact (keepsAlike_dutyFire m).readsOnlyItsParams_guarded (fun _ _ _ => rfl) fun _ => rfl

theorem readsOnlyItsParams_of_reach_mcmp {i : Instr} (h : reach i = .mcmp) : ReadsOnlyItsParams view i := by
  match i, h with
  | .wMcmpTmrCfg m v, _ => exact readsOnlyItsParams_of_blind fun _ => ⟨_, rfl, rfl, rfl, fun _ _ => rfl⟩
  | .wMcmpOpMode o v, _ => exact readsOnlyItsParams_of_blind fun _ => ⟨_, rfl, rfl, rfl, fun _ _ => rfl⟩
  | .wMcmpOpCmpa o v, _ =>
    exact (keepsAlike_compare o (fun x => { x with cmpa := fieldOf v 0 16 }) (Oper.outOf · .a) .a
      fun x => fieldOf v 0 16 ≠ 0 ∧ fieldOf v 0 16 ≠ x.cmpa).readsOnlyItsParams fun _ => rfl
  | .wMcmpOpCmpb o v, _ =>
    exact (keepsAlike_compare o (fun x => { x with cmpb := fieldOf v 0 16 }) (Oper.outOf · .b) .b
      fun x => fieldOf v 0 16 ≠ 0 ∧ fieldOf v 0 16 ≠ x.cmpb).readsOnlyItsParams fun _ => rfl
  | .fireMcmp o k, _ => exact (keepsAlike_mcmpFire o k).readsOnlyItsParams_guarded (fun _ _ _ => rfl) fun _ => rfl

theorem readsOnlyItsParams_of_reach_strm {i : Instr} (h : reach i = .strm) : ReadsOnlyItsParams view i := by
  match i, h with
  | .wStrmChConf n v, _ =>
    have hstored : KeepsAlike view (fun s => s.strmStored n v) :=
      keepsAlike_of_blind (fun _ => rfl) (fun _ => rfl) fun _ _ _ => rfl
    have hchoose : KeepsAlike view (fun s => if (s.strmCh n).en then s.strmStart n else s) :=
      .ite_blind (c := fun s => (s.strmCh n).en = true) (fun _ _ _ => .rfl)
        (keepsAlike_strmStart n) keepsAlike_id
    exact (hstored.comp hchoose).readsOnlyItsParams fun _ => rfl
  | .wStrmIntEnable v, _ => exact readsOnlyItsParams_of_blind fun _ => ⟨_, rfl, rfl, rfl, fun _ _ => rfl⟩
  | .wStrmIntClear v, _ =>
    have hcleared : KeepsAlike view (fun s => s.strmCleared v) :=
      keepsAlike_of_blind (fun _ => rfl) (fun _ => rfl) fun _ _ _ => rfl
    exact (hcleared.comp (keepsAlike_foldl keepsAlike_strmResume _)).readsOnlyItsParams fun _ => rfl
  | .wStrmRam n j v, _ => exact readsOnlyItsParams_of_blind fun _ => ⟨_, rfl, rfl, rfl, fun _ _ => rfl⟩
  | .fireStrm n, _ =>
    exact ((keepsAlike_cancel (.strm n)).comp (keepsAlike_drain n)).readsOnlyItsParams_guarded (c := fun s => s.due (.strm n))
      (fun _ _ _ => rfl) fun _ => rfl

/-- 00_scope.md R8: no operation reads the window bases, and the sinks only in the events of transferred words. -/
theorem exec_readsOnlyItsParams (i : Instr) : ReadsOnlyItsParams view i := by
  cases h : reach i with
  | gpio => exact readsOnlyItsParams_of_reach_gpio h
  | duty n => exact readsOnlyItsParams_of_reach_duty h
  | dutyLatch => exact readsOnlyItsParams_of_reach_dutyLatch h
  | mcmp => exact readsOnlyItsParams_of_reach_mcmp h
  | strm => exact readsOnlyItsParams_of_reach_strm h
  | clock =>
    obtain ⟨u, rfl⟩ := eq_advance_of_reach_clock h
    exact KeepsAlike.readsOnlyItsParams_guarded (f := fun s => s.withNow u) (c := fun s => s.advanceEnabled u)
      (keepsAlike_of_blind (fun _ => rfl) (fun _ => rfl) fun _ _ _ => rfl) (fun _ _ _ => rfl) fun _ => rfl
  | nothing => exact readsOnlyItsParams_of_reach_nothing h
  | everything =>
    cases eq_reset_of_reach_everything h
    exact readsOnlyItsParams_of_blind fun _ => ⟨_, rfl, rfl, rfl, fun _ _ => rfl⟩

end Operations

/-! The statement. -/

/-- An operation run under other parameters that read alike does the same under those parameters. -/
theorem exec_under {view : Event → Event} {i : Instr} {s t : State} {p : Params} (he : exec i s = .next t)
    (hread : ReadAlike view s.params p) :
    ∃ tr, exec i (s.under p s.trace) = .next (t.under p tr) ∧ tr.map view = t.trace.map view := by
  obtain ⟨t', he', p', tr, rfl, -, htrace⟩ := exec_readsOnlyItsParams i s _ t ⟨p, s.trace, rfl, hread, rfl⟩ he
  obtain ⟨-, hparams, -, -⟩ := exec_staysIn he'
  have hp : p' = p := hparams
  exact ⟨tr, hp ▸ he', htrace⟩

/-- 46_stream_waveform.md R284: with `SinkXfer` and `Warn` not told apart, all sinks read alike. -/
theorem readAlike_sinks (p : Params) (sinks : Vector Bool 4) : ReadAlike eraseSink p { p with sinkPresent := sinks } where
  dutyClkHz0 := rfl
  dutyClkHz1 := rfl
  mcmpClkHz := rfl
  strmClkHz := rfl
  dutySigBase := rfl
  mcmpSigBase := rfl
  transfer n item := by
    have herase : ∀ q : Params, eraseSink (transferEvent q n item) = .warn n := fun q => by
      unfold transferEvent
      split_ifs <;> rfl
    rw [herase, herase]

/-- 20_memory.md R60: all window bases read alike. -/
theorem readAlike_bases (p : Params) (gpio duty mcmp strm : Nat) :
    ReadAlike id p { p with gpioBase := gpio, dutyBase := duty, mcmpBase := mcmp, strmBase := strm } :=
  ⟨rfl, rfl, rfl, rfl, rfl, rfl, fun _ _ => rfl⟩

/-- Settles O43: both changes of the parameters read alike, and the traces start out the same. -/
theorem sinksChangeOnlyTheirEventsAndBasesNothing : Obligations.SinksChangeOnlyTheirEventsAndBasesNothing := by
  unfold Obligations.SinksChangeOnlyTheirEventsAndBasesNothing
  refine ⟨fun i s t sinks he => ?_, fun i s t gpio duty mcmp strm he => ?_⟩
  · obtain ⟨tr, he', htrace⟩ := exec_under he (readAlike_sinks s.params sinks)
    obtain ⟨-, hparams, -, -⟩ := exec_staysIn he
    obtain ⟨es, hes, -⟩ := traceIsAppendedToAndNeverRead i s t he
    obtain ⟨es', hes', -⟩ := traceIsAppendedToAndNeverRead i _ _ he'
    refine ⟨_, es, es', he', ?_, hes, hes', ?_⟩
    · unfold withSinks
      rw [hparams]
      rfl
    · have htr : tr = s.trace ++ es' := hes'
      rw [htr, hes, List.map_append, List.map_append] at htrace
      exact List.append_cancel_left htrace
  · obtain ⟨tr, he', htrace⟩ := exec_under he (readAlike_bases s.params gpio duty mcmp strm)
    obtain ⟨-, hparams, -, -⟩ := exec_staysIn he
    rw [List.map_id, List.map_id] at htrace
    rw [htrace] at he'
    unfold withBases
    rw [hparams]
    exact he'

end Sys2Proof.Machine
end

section
/-! PROOF. The decoder and the encoder agree (30_encoding.md R86, R87, R95 to R98). The mapped rows are pairwise
disjoint, so a row that selects an access is the one that decodes it; each row stands for registers of the maps and for
no unmapped offset; and every aligned offset belongs to a register or is listed as unmapped. -/

namespace Sys2Proof

open Sys2Proof.Machine

/-! Selectors and their fields. -/

/-- R86: the selector as a number. -/
theorem selector_toNat (write : Bool) (win : Window) (off : BitVec 12) :
    (selector write win off).toNat = write.toNat * 2 ^ 14 + win.code * 2 ^ 12 + off.toNat := by
  have hcode : win.code % 2 ^ 2 = win.code := by cases win <;> rfl
  rw [selector, append_toNat_add, append_toNat_add, BitVec.toNat_ofNat, BitVec.toNat_ofBool, hcode]
  omega

theorem toNat_beq_one (b : Bool) : (b.toNat == 1) = b := by cases b <;> rfl

theorem beq_one_toNat {v : Nat} (h : v ≤ 1) : (v == 1).toNat = v := by
  obtain rfl | rfl : v = 0 ∨ v = 1 := by omega
  · rfl
  · rfl

/-- R86: a selector has one direction, one window and one offset. -/
theorem selector_inj {write write' : Bool} {win win' : Window} {off off' : BitVec 12}
    (h : selector write win off = selector write' win' off') : write = write' ∧ win = win' ∧ off = off' := by
  have hnum := congrArg BitVec.toNat h
  rw [selector_toNat, selector_toNat] at hnum
  have hoff := off.isLt
  have hoff' := off'.isLt
  have hbound : ∀ w : Window, w.code < 4 := fun w => by cases w <;> decide
  have hback : ∀ w : Window, Window.ofCode w.code = w := fun w => by cases w <;> rfl
  have hwin := hbound win
  have hwin' := hbound win'
  have hdir : write.toNat = write'.toNat := by omega
  have hcode : win.code = win'.code := by omega
  exact ⟨by rw [← toNat_beq_one write, hdir, toNat_beq_one], by rw [← hback win, hcode, hback],
    BitVec.eq_of_toNat_eq (by omega)⟩

/-- The selector bits `hi` to `lo`. -/
def fieldMask (hi lo : Nat) : BitVec 15 := BitVec.ofNat 15 ((2 ^ (hi + 1 - lo) - 1) <<< lo)

/-- A field stands within the selector's 15 bits. -/
theorem field_le {hi lo : Nat} (hlo : lo ≤ hi) (hhi : hi < 15) : 2 ^ lo * 2 ^ (hi + 1 - lo) ≤ 2 ^ 15 := by
  rw [← Nat.pow_add]
  exact Nat.pow_le_pow_right (by decide) (by omega)

/-- Only the field survives its mask. -/
theorem and_fieldMask_toNat (sel : BitVec 15) {hi lo : Nat} (hlo : lo ≤ hi) (hhi : hi < 15) :
    (sel &&& fieldMask hi lo).toNat = 2 ^ lo * selField sel hi lo := by
  have hfit : (2 ^ (hi + 1 - lo) - 1) <<< lo < 2 ^ 15 := by
    rw [Nat.shiftLeft_eq, Nat.mul_comm]
    exact (Nat.mul_lt_mul_of_pos_left (Nat.sub_lt (by positivity) one_pos) (by positivity)).trans_le (field_le hlo hhi)
  rw [BitVec.toNat_and, fieldMask, BitVec.toNat_ofNat, Nat.mod_eq_of_lt hfit, selField]
  apply Nat.eq_of_testBit_eq
  intro j
  rw [Nat.testBit_and, Nat.testBit_shiftLeft, Nat.testBit_two_pow_sub_one, Nat.testBit_two_pow_mul,
    Nat.testBit_mod_two_pow, Nat.testBit_div_two_pow]
  by_cases hj : lo ≤ j
  · simp [hj, Bool.and_comm]
  · simp [hj]

/-- A selector is its bits outside the field and its field. -/
theorem toNat_eq_and_not_fieldMask (sel : BitVec 15) {hi lo : Nat} (hlo : lo ≤ hi) (hhi : hi < 15) :
    sel.toNat = (sel &&& ~~~fieldMask hi lo).toNat + 2 ^ lo * selField sel hi lo := by
  have hdisjoint : (sel &&& ~~~fieldMask hi lo) &&& (sel &&& fieldMask hi lo) = 0#15 := by ext; simp; grind
  have hsum : (sel &&& ~~~fieldMask hi lo) + (sel &&& fieldMask hi lo) = sel := by
    rw [BitVec.add_eq_or_of_and_eq_zero _ _ hdisjoint]
    ext; simp; grind
  rw [← and_fieldMask_toNat sel hlo hhi, ← BitVec.toNat_add_of_and_eq_zero hdisjoint, hsum]

/-! Disjoint rows. -/

/-- Settles O3: a finite table, row by row. -/
theorem mappedRowsDoNotOverlap : Obligations.MappedRowsDoNotOverlap := by
  unfold Obligations.MappedRowsDoNotOverlap
  decide +kernel

theorem Row.select_eq_some_iff (r : Row) (sel : BitVec 15) (v : Word) (i : Instr) :
    r.select sel v = some i ↔ sel &&& r.mask = r.pat ∧ r.make sel v = some i := by
  simp [Row.select]

/-- R86: where the patterns differ in a bit that both masks test, no selector fits both rows. -/
theorem Row.select_eq_none_of_disjoint {a b : Row} (h : (a.pat ^^^ b.pat) &&& (a.mask &&& b.mask) ≠ 0) {sel : BitVec 15}
    {v : Word} {i : Instr} (hb : b.select sel v = some i) : a.select sel v = none := by
  refine Option.eq_none_iff_forall_ne_some.mpr fun j ha => h ?_
  obtain ⟨hpata, -⟩ := (a.select_eq_some_iff sel v j).mp ha
  obtain ⟨hpatb, -⟩ := (b.select_eq_some_iff sel v i).mp hb
  rw [← hpata, ← hpatb]
  ext
  simp
  grind

/-- Among disjoint rows, one that selects is the one that is found. -/
theorem findSome?_select_of_mem {rows : List Row}
    (hrows : rows.Pairwise fun a b => (a.pat ^^^ b.pat) &&& (a.mask &&& b.mask) ≠ 0) {r : Row} (hr : r ∈ rows)
    {sel : BitVec 15} {v : Word} {i : Instr} (h : r.select sel v = some i) :
    rows.findSome? (fun r => r.select sel v) = some i := by
  induction rows with
  | nil => cases hr
  | cons a rest ih =>
    obtain ⟨hhead, htail⟩ := List.pairwise_cons.mp hrows
    rw [List.findSome?_cons]
    obtain rfl | hmem := List.mem_cons.mp hr
    · rw [h]
    · rw [Row.select_eq_none_of_disjoint (hhead r hmem) h]
      exact ih htail hmem

theorem decodeBus_of_select {r : Row} (hr : r ∈ busRows) {write : Bool} {win : Window} {off : BitVec 12} {v : Word}
    {i : Instr} (h : r.select (selector write win off) v = some i) : decodeBus write win off v = i := by
  rw [decodeBus, findSome?_select_of_mem mappedRowsDoNotOverlap hr h]

/-! What a row stands for. -/

/-- A word of a window's register map (R64, R95 to R98). -/
abbrev Window.MappedWord (win : Window) (off : Nat) : Prop := off % 4 = 0 ∧ off < 0x1000 ∧ win.listsUnmapped off = false

/-- R95: the levels, the latch words, and the tables `PINp_CFG`, `OUTSELp` and `INSELs`. -/
theorem mappedWord_gpio_iff (off : Nat) : Window.gpio.MappedWord off ↔ off % 4 = 0 ∧
    (off ≤ 0x004 ∨ 0x010 ≤ off ∧ off ≤ 0x04C ∨ 0x100 ≤ off ∧ off ≤ 0x1C0 ∨ 0x200 ≤ off ∧ off ≤ 0x2C0 ∨
      0x400 ≤ off ∧ off ≤ 0x7FC) := by
  simp [Window.MappedWord, Window.listsUnmapped, Window.between]
  omega

/-- R96: the channels and the latch words. -/
theorem mappedWord_duty_iff (off : Nat) : Window.duty.MappedWord off ↔ off % 4 = 0 ∧
    (off ≤ 0x07C ∨ 0x0C0 ≤ off ∧ off ≤ 0x0CC) := by
  simp [Window.MappedWord, Window.listsUnmapped, Window.between]
  omega

/-- R97: the timers and the operators, of three words each. -/
theorem mappedWord_mcmp_iff (off : Nat) : Window.mcmp.MappedWord off ↔ off % 4 = 0 ∧
    (off ≤ 0x008 ∨ 0x040 ≤ off ∧ off ≤ 0x068 ∧ off % 16 ≠ 12) := by
  simp [Window.MappedWord, Window.listsUnmapped, Window.between]
  omega

/-- R98: the channels, of one word each, the latch words and the rings. -/
theorem mappedWord_strm_iff (off : Nat) : Window.strm.MappedWord off ↔ off % 4 = 0 ∧
    (off ≤ 0x030 ∧ off % 16 = 0 ∨ 0x0C0 ≤ off ∧ off ≤ 0x0CC ∨ 0x400 ≤ off ∧ off ≤ 0x7FC) := by
  simp [Window.MappedWord, Window.listsUnmapped, Window.between]
  omega

/-- The request of a bus access of one word. -/
def busRequest (write : Bool) (win : Window) (off : Nat) (v : Word) : Request :=
  if write then .busWrite win off 32 v else .busRead win off 32

/-- The data word of a bus access: a read has none (log entry 9). -/
def carried (write : Bool) (v : Word) : Word := if write then v else 0

theorem decode_busRequest (write : Bool) (win : Window) {off : Nat} (h : off % 4 = 0 ∧ off < 0x1000) (v : Word) :
    decode (busRequest write win off v) = .ok (decodeBus write win (BitVec.ofNat 12 off) (carried write v)) := by
  have haccept : busReject off 32 = none := (busReject_eq_none_iff off 32).mpr ⟨rfl, h.1, by omega⟩
  cases write <;> simp [busRequest, carried, decode, haccept]

/-- A row agrees with the maps: what it selects is a mapped word, and it makes of it the operation that the encoder puts
there; and whatever it can make it makes of a selector that it selects. -/
structure Row.Faithful (r : Row) : Prop where
  sound : ∀ sel v i, r.select sel v = some i → ∃ write win off, win.MappedWord off ∧
    sel = selector write win (BitVec.ofNat 12 off) ∧ encode i = busRequest write win off v ∧
    r.select sel (carried write v) = some i
  complete : ∀ sel v i, r.make sel v = some i → ∃ sel', r.select sel' v = some i

/-- The operations `mk x` are the accesses of the mapped words at `off x`. -/
structure Accesses {ι : Type} (write : Bool) (win : Window) (off : ι → Nat) (mk : ι → Word → Instr) : Prop where
  mapped : ∀ x, win.MappedWord (off x)
  encode_eq : ∀ x v, encode (mk x v) = busRequest write win (off x) v
  carried_eq : ∀ x v, mk x (carried write v) = mk x v

/-- A row agrees with the maps when it selects its pattern and the shifts of it by an index, at mapped words. -/
theorem Row.faithful_of_select_iff {ι : Type} {r : Row} {write : Bool} {win : Window} {o : Nat} {off shift : ι → Nat}
    {mk : ι → Word → Instr} (hpat : r.pat = selector write win (BitVec.ofNat 12 o)) (hoff : ∀ x, off x = o + shift x)
    (hacc : Accesses write win off mk)
    (hselect : ∀ sel v i, r.select sel v = some i ↔ ∃ x, sel.toNat = r.pat.toNat + shift x ∧ mk x v = i)
    (hmake : ∀ sel v i, r.make sel v = some i → ∃ x, mk x v = i) : r.Faithful := by
  have hshift : ∀ x, (selector write win (BitVec.ofNat 12 (off x))).toNat = r.pat.toNat + shift x := fun x => by
    obtain ⟨-, hlt, -⟩ := hacc.mapped x
    have ho := hoff x
    rw [hpat, selector_toNat, selector_toNat, BitVec.toNat_ofNat, BitVec.toNat_ofNat]
    omega
  constructor
  · intro sel v i h
    obtain ⟨x, hsel, rfl⟩ := (hselect sel v i).mp h
    exact ⟨write, win, off x, hacc.mapped x, BitVec.eq_of_toNat_eq (hsel.trans (hshift x).symm), hacc.encode_eq x v,
      (hselect sel _ _).mpr ⟨x, hsel, hacc.carried_eq x v⟩⟩
  · intro sel v i h
    obtain ⟨x, rfl⟩ := hmake sel v i h
    exact ⟨_, (hselect _ v _).mpr ⟨x, hshift x, rfl⟩⟩

theorem Row.plain_select_iff (pat : BitVec 15) (mk : Word → Instr) (sel : BitVec 15) (v : Word) (i : Instr) :
    (Row.plain pat mk).select sel v = some i ↔ sel = pat ∧ mk v = i := by
  have hmask : sel &&& 0x7FFF#15 = sel := BitVec.and_allOnes
  simp [Row.select, Row.plain, hmask]

theorem Row.plain_faithful {write : Bool} {win : Window} {o : Nat} {pat : BitVec 15} {mk : Word → Instr}
    (hpat : pat = selector write win (BitVec.ofNat 12 o))
    (hacc : Accesses write win (fun _ : Unit => o) (fun _ => mk)) : (Row.plain pat mk).Faithful :=
  Row.faithful_of_select_iff (shift := fun _ => 0) hpat (fun _ => rfl) hacc
    (fun sel v i => by
      rw [Row.plain_select_iff, BitVec.toNat_eq]
      exact ⟨fun h => ⟨(), h⟩, fun ⟨_, h⟩ => h⟩)
    (fun _ _ _ h => ⟨(), Option.some.inj h⟩)

/-- R86: the mask tests every bit but the field, the pattern leaves the field 0, and the field holds `n` indices. -/
abbrev FieldFits (pat mask : BitVec 15) (hi lo n : Nat) : Prop :=
  lo ≤ hi ∧ hi < 15 ∧ mask = ~~~fieldMask hi lo ∧ selField pat hi lo = 0 ∧ n ≤ 2 ^ (hi + 1 - lo)

/-- A selector fits the mask and the pattern when it is the pattern shifted by its field. -/
theorem and_mask_eq_iff {pat mask : BitVec 15} {hi lo n : Nat} (h : FieldFits pat mask hi lo n) (sel : BitVec 15) :
    sel &&& mask = pat ↔ sel.toNat = pat.toNat + 2 ^ lo * selField sel hi lo := by
  obtain ⟨hlo, hhi, rfl, -, -⟩ := h
  rw [toNat_eq_and_not_fieldMask sel hlo hhi, ← BitVec.toNat_inj]
  omega

theorem selField_of_shift {pat mask : BitVec 15} {hi lo n : Nat} (h : FieldFits pat mask hi lo n) {sel : BitVec 15}
    {x : Nat} (hx : x < n) (hsel : sel.toNat = pat.toNat + 2 ^ lo * x) : selField sel hi lo = x := by
  obtain ⟨-, -, -, hzero, hn⟩ := h
  unfold selField at hzero ⊢
  rw [hsel, Nat.add_mul_div_left _ _ (by positivity), Nat.add_mod, hzero, Nat.zero_add, Nat.mod_mod,
    Nat.mod_eq_of_lt (by omega)]

theorem Row.indexed_make_iff {pat mask : BitVec 15} {hi lo n : Nat} {mk : Fin n → Word → Instr} {sel : BitVec 15}
    {v : Word} {i : Instr} : (Row.indexed pat mask hi lo n mk).make sel v = some i ↔
      ∃ x : Fin n, selField sel hi lo = x.val ∧ mk x v = i := by
  simp only [Row.indexed]
  split_ifs with h
  · constructor
    · intro e
      exact ⟨⟨_, h⟩, rfl, Option.some.inj e⟩
    · rintro ⟨x, hx, rfl⟩
      simp [hx]
  · refine ⟨fun e => (by cases e), ?_⟩
    rintro ⟨x, hx, -⟩
    exact absurd (hx ▸ x.isLt) h

theorem Row.indexed_faithful {write : Bool} {win : Window} {pat mask : BitVec 15} {hi lo n o : Nat}
    {mk : Fin n → Word → Instr} {off : Fin n → Nat} (hpat : pat = selector write win (BitVec.ofNat 12 o))
    (hfits : FieldFits pat mask hi lo n) (hoff : ∀ x : Fin n, off x = o + 2 ^ lo * x.val)
    (hacc : Accesses write win off mk) : (Row.indexed pat mask hi lo n mk).Faithful := by
  refine Row.faithful_of_select_iff hpat hoff hacc (fun sel v i => ?_) (fun sel v i h => ?_)
  · rw [Row.select_eq_some_iff, Row.indexed_make_iff]
    constructor
    · rintro ⟨hmask, x, hx, hmk⟩
      exact ⟨x, hx ▸ (and_mask_eq_iff hfits sel).mp hmask, hmk⟩
    · rintro ⟨x, hsel, hmk⟩
      have hx := selField_of_shift hfits x.isLt hsel
      exact ⟨(and_mask_eq_iff hfits sel).mpr (hx ▸ hsel), x, hx, hmk⟩
  · obtain ⟨x, -, hx⟩ := Row.indexed_make_iff.mp h
    exact ⟨x, hx⟩

/-- A pair of indices as one index. -/
theorem mul_add_lt {n n' : Nat} (x : Fin n) (y : Fin n') : n' * x.val + y.val < n' * n := by
  calc n' * x.val + y.val < n' * x.val + n' := Nat.add_lt_add_left y.isLt _
    _ = n' * (x.val + 1) := (Nat.mul_succ _ _).symm
    _ ≤ n' * n := Nat.mul_le_mul_left _ x.isLt

/-- A field of two adjacent parts holds a pair of indices when each part holds its own. -/
theorem selField_adjacent_iff {hi mid lo n n' : Nat} (hmid : mid < hi) (hlo : lo ≤ mid) (hn' : n' = 2 ^ (mid + 1 - lo))
    (sel : BitVec 15) (x : Fin n) (y : Fin n') :
    selField sel hi (mid + 1) = x.val ∧ selField sel mid lo = y.val ↔ selField sel hi lo = n' * x.val + y.val := by
  have hwidth : 2 ^ (hi + 1 - lo) = n' * 2 ^ (hi + 1 - (mid + 1)) := by
    rw [hn', ← Nat.pow_add]; congr 1; omega
  have hshift : 2 ^ (mid + 1) = 2 ^ lo * n' := by
    rw [hn', ← Nat.pow_add]; congr 1; omega
  have hhigh : selField sel hi (mid + 1) = selField sel hi lo / n' := by
    rw [selField, selField, hwidth, hshift, Nat.mod_mul_right_div_self, Nat.div_div_eq_div_mul]
  have hlow : selField sel mid lo = selField sel hi lo % n' := by
    rw [selField, selField, hwidth, Nat.mod_mul_right_mod, hn']
  rw [hhigh, hlow, Nat.div_mod_unique y.pos, Nat.add_comm y.val]
  exact ⟨fun h => h.1.symm, fun h => ⟨h.symm, y.isLt⟩⟩

theorem Row.indexed2_make_iff {pat mask : BitVec 15} {hi lo n hi' lo' n' : Nat} {mk : Fin n → Fin n' → Word → Instr}
    {sel : BitVec 15} {v : Word} {i : Instr} : (Row.indexed2 pat mask hi lo n hi' lo' n' mk).make sel v = some i ↔
      ∃ x : Fin n × Fin n', selField sel hi lo = x.1.val ∧ selField sel hi' lo' = x.2.val ∧ mk x.1 x.2 v = i := by
  simp only [Row.indexed2]
  split_ifs with h h'
  · constructor
    · intro e
      exact ⟨⟨⟨_, h⟩, ⟨_, h'⟩⟩, rfl, rfl, Option.some.inj e⟩
    · rintro ⟨x, hx, hy, rfl⟩
      simp [hx, hy]
  · refine ⟨fun e => (by cases e), ?_⟩
    rintro ⟨x, -, hy, -⟩
    exact absurd (hy ▸ x.2.isLt) h'
  · refine ⟨fun e => (by cases e), ?_⟩
    rintro ⟨x, hx, -, -⟩
    exact absurd (hx ▸ x.1.isLt) h

/-- The two indices stand in adjacent parts of one field. -/
theorem Row.indexed2_faithful {write : Bool} {win : Window} {pat mask : BitVec 15} {hi mid lo n n' o : Nat}
    {mk : Fin n → Fin n' → Word → Instr} {off : Fin n × Fin n' → Nat}
    (hpat : pat = selector write win (BitVec.ofNat 12 o)) (hfits : FieldFits pat mask hi lo (n' * n))
    (hparts : mid < hi ∧ lo ≤ mid ∧ n' = 2 ^ (mid + 1 - lo))
    (hoff : ∀ x, off x = o + 2 ^ lo * (n' * x.1.val + x.2.val)) (hacc : Accesses write win off fun x => mk x.1 x.2) :
    (Row.indexed2 pat mask hi (mid + 1) n mid lo n' mk).Faithful := by
  obtain ⟨hmid, hlo, hn'⟩ := hparts
  refine Row.faithful_of_select_iff hpat hoff hacc (fun sel v i => ?_) (fun sel v i h => ?_)
  · rw [Row.select_eq_some_iff, Row.indexed2_make_iff]
    constructor
    · rintro ⟨hmask, x, hx, hy, hmk⟩
      have hfield := (selField_adjacent_iff hmid hlo hn' sel x.1 x.2).mp ⟨hx, hy⟩
      exact ⟨x, hfield ▸ (and_mask_eq_iff hfits sel).mp hmask, hmk⟩
    · rintro ⟨x, hsel, hmk⟩
      have hfield := selField_of_shift hfits (mul_add_lt x.1 x.2) hsel
      obtain ⟨hx, hy⟩ := (selField_adjacent_iff hmid hlo hn' sel x.1 x.2).mpr hfield
      exact ⟨(and_mask_eq_iff hfits sel).mpr (hfield ▸ hsel), x, hx, hy, hmk⟩
  · obtain ⟨x, -, -, hx⟩ := Row.indexed2_make_iff.mp h
    exact ⟨x, hx⟩

/-! The rows of the table, a read row and a write row at a time. -/

theorem forall_faithful_plain {win : Window} {o : Nat} {pat pat' : BitVec 15} {rd : Instr} {wr : Word → Instr}
    {rows : List Row} (hrd : encode rd = .busRead win o 32) (hwr : ∀ v, encode (wr v) = .busWrite win o 32 v)
    (hpat : pat = selector false win (BitVec.ofNat 12 o) ∧ pat' = selector true win (BitVec.ofNat 12 o))
    (hword : win.MappedWord o) (hrows : ∀ r ∈ rows, r.Faithful) :
    ∀ r ∈ Row.plain pat (fun _ => rd) :: Row.plain pat' wr :: rows, r.Faithful :=
  List.forall_mem_cons.mpr ⟨Row.plain_faithful hpat.1 ⟨fun _ => hword, fun _ _ => hrd, fun _ _ => rfl⟩,
    List.forall_mem_cons.mpr ⟨Row.plain_faithful hpat.2 ⟨fun _ => hword, fun _ => hwr, fun _ _ => rfl⟩, hrows⟩⟩

theorem forall_faithful_indexed {win : Window} (o : Nat) {hi lo n : Nat} {pat pat' mask : BitVec 15}
    {rd : Fin n → Instr} {wr : Fin n → Word → Instr} {rows : List Row} {off : Fin n → Nat}
    (hrd : ∀ x, encode (rd x) = .busRead win (off x) 32) (hwr : ∀ x v, encode (wr x v) = .busWrite win (off x) 32 v)
    (hpat : pat = selector false win (BitVec.ofNat 12 o) ∧ pat' = selector true win (BitVec.ofNat 12 o))
    (hfits : FieldFits pat mask hi lo n ∧ FieldFits pat' mask hi lo n)
    (hoff : ∀ x : Fin n, off x = o + 2 ^ lo * x.val ∧ win.MappedWord (off x)) (hrows : ∀ r ∈ rows, r.Faithful) :
    ∀ r ∈ Row.indexed pat mask hi lo n (fun x _ => rd x) :: Row.indexed pat' mask hi lo n wr :: rows, r.Faithful :=
  List.forall_mem_cons.mpr ⟨Row.indexed_faithful hpat.1 hfits.1 (fun x => (hoff x).1)
      ⟨fun x => (hoff x).2, fun x _ => hrd x, fun _ _ => rfl⟩,
    List.forall_mem_cons.mpr ⟨Row.indexed_faithful hpat.2 hfits.2 (fun x => (hoff x).1)
      ⟨fun x => (hoff x).2, hwr, fun _ _ => rfl⟩, hrows⟩⟩

theorem forall_faithful_nil : ∀ r ∈ ([] : List Row), r.Faithful := fun _ h => nomatch h

theorem gpioLatchRows_faithful : ∀ r ∈ gpioLatchRows, r.Faithful := by
  iterate 18 refine forall_faithful_plain rfl (fun _ => rfl) (by decide) (by decide) ?_
  exact forall_faithful_nil

theorem gpioTableRows_faithful : ∀ r ∈ gpioTableRows, r.Faithful :=
  forall_faithful_indexed 0x100 (fun _ => rfl) (fun _ _ => rfl) (by decide) (by decide)
      (fun _ => ⟨rfl, (mappedWord_gpio_iff _).mpr (by omega)⟩) <|
  forall_faithful_indexed 0x200 (fun _ => rfl) (fun _ _ => rfl) (by decide) (by decide)
      (fun _ => ⟨rfl, (mappedWord_gpio_iff _).mpr (by omega)⟩) <|
  forall_faithful_indexed 0x400 (fun _ => rfl) (fun _ _ => rfl) (by decide) (by decide)
      (fun _ => ⟨rfl, (mappedWord_gpio_iff _).mpr (by omega)⟩)
    forall_faithful_nil

theorem dutyRows_faithful : ∀ r ∈ dutyRows, r.Faithful := by
  refine forall_faithful_indexed 0x000 (fun _ => rfl) (fun _ _ => rfl) (by decide) (by decide)
      (fun _ => ⟨(Nat.zero_add _).symm, (mappedWord_duty_iff _).mpr (by omega)⟩) <|
    forall_faithful_indexed 0x004 (fun _ => rfl) (fun _ _ => rfl) (by decide) (by decide)
      (fun _ => ⟨rfl, (mappedWord_duty_iff _).mpr (by omega)⟩) <|
    forall_faithful_indexed 0x008 (fun _ => rfl) (fun _ _ => rfl) (by decide) (by decide)
      (fun _ => ⟨rfl, (mappedWord_duty_iff _).mpr (by omega)⟩) <|
    forall_faithful_indexed 0x00C (fun _ => rfl) (fun _ _ => rfl) (by decide) (by decide)
      (fun _ => ⟨rfl, (mappedWord_duty_iff _).mpr (by omega)⟩) ?_
  iterate 4 refine forall_faithful_plain rfl (fun _ => rfl) (by decide) (by decide) ?_
  exact forall_faithful_nil

theorem mcmpRows_faithful : ∀ r ∈ mcmpRows, r.Faithful :=
  forall_faithful_indexed 0x000 (fun _ => rfl) (fun _ _ => rfl) (by decide) (by decide)
      (fun _ => ⟨(Nat.zero_add _).symm, (mappedWord_mcmp_iff _).mpr (by omega)⟩) <|
  forall_faithful_indexed 0x040 (fun _ => rfl) (fun _ _ => rfl) (by decide) (by decide)
      (fun _ => ⟨rfl, (mappedWord_mcmp_iff _).mpr (by omega)⟩) <|
  forall_faithful_indexed 0x044 (fun _ => rfl) (fun _ _ => rfl) (by decide) (by decide)
      (fun _ => ⟨rfl, (mappedWord_mcmp_iff _).mpr (by omega)⟩) <|
  forall_faithful_indexed 0x048 (fun _ => rfl) (fun _ _ => rfl) (by decide) (by decide)
      (fun _ => ⟨rfl, (mappedWord_mcmp_iff _).mpr (by omega)⟩)
    forall_faithful_nil

theorem strmRows_faithful : ∀ r ∈ strmRows, r.Faithful := by
  refine forall_faithful_indexed 0x000 (fun _ => rfl) (fun _ _ => rfl) (by decide) (by decide)
      (fun _ => ⟨(Nat.zero_add _).symm, (mappedWord_strm_iff _).mpr (by omega)⟩) ?_
  iterate 4 refine forall_faithful_plain rfl (fun _ => rfl) (by decide) (by decide) ?_
  have hoff : ∀ x : StrmIx × RingIx, 0x400 + 256 * x.1.val + 4 * x.2.val = 0x400 + 2 ^ 2 * (64 * x.1.val + x.2.val) ∧
      Window.strm.MappedWord (0x400 + 256 * x.1.val + 4 * x.2.val) := fun x =>
    ⟨by omega, (mappedWord_strm_iff _).mpr (by omega)⟩
  rw [List.forall_mem_cons, List.forall_mem_singleton]
  exact ⟨Row.indexed2_faithful (write := false) (o := 0x400) (by decide) (by decide) (by decide) (fun x => (hoff x).1)
      ⟨fun x => (hoff x).2, fun _ _ => rfl, fun _ _ => rfl⟩,
    Row.indexed2_faithful (write := true) (o := 0x400) (by decide) (by decide) (by decide) (fun x => (hoff x).1)
      ⟨fun x => (hoff x).2, fun _ _ => rfl, fun _ _ => rfl⟩⟩

theorem busRows_faithful : ∀ r ∈ busRows, r.Faithful := by
  simp only [busRows, List.forall_mem_append]
  exact ⟨⟨⟨⟨gpioLatchRows_faithful, gpioTableRows_faithful⟩, dutyRows_faithful⟩, mcmpRows_faithful⟩, strmRows_faithful⟩

/-! Decoding what was encoded. -/

/-- An operation that some row can make decodes from its own request. -/
theorem decode_encode_of_make {k : Nat} {r : Row} (hr : busRows[k]? = some r) {sel : BitVec 15} {v : Word} {i : Instr}
    (h : r.make sel v = some i) : decode (encode i) = .ok i := by
  have hmem := List.mem_of_getElem? hr
  obtain ⟨sel', hsel'⟩ := (busRows_faithful r hmem).complete sel v i h
  obtain ⟨write, win, off, ⟨h4, hlt, -⟩, rfl, henc, hselect⟩ := (busRows_faithful r hmem).sound sel' v i hsel'
  rw [henc, decode_busRequest write win ⟨h4, hlt⟩, decodeBus_of_select hmem hselect]

/-- A field can hold every value of its width. -/
theorem exists_selField_eq {hi lo x : Nat} (hlo : lo ≤ hi) (hhi : hi < 15) (hx : x < 2 ^ (hi + 1 - lo)) :
    ∃ sel, selField sel hi lo = x := by
  have hlt : 2 ^ lo * x < 2 ^ 15 := (Nat.mul_lt_mul_of_pos_left hx (by positivity)).trans_le (field_le hlo hhi)
  refine ⟨BitVec.ofNat 15 (2 ^ lo * x), ?_⟩
  rw [selField, BitVec.toNat_ofNat, Nat.mod_eq_of_lt hlt, Nat.mul_div_cancel_left _ (by positivity),
    Nat.mod_eq_of_lt hx]

/-- The operations of row `k` of the table, which has an index field. -/
theorem decode_encode_of_indexed (k : Nat) {pat mask : BitVec 15} {hi lo n : Nat} {mk : Fin n → Word → Instr}
    (hr : busRows[k]? = some (Row.indexed pat mask hi lo n mk)) (hfield : lo ≤ hi ∧ hi < 15 ∧ n ≤ 2 ^ (hi + 1 - lo))
    (x : Fin n) (v : Word) : decode (encode (mk x v)) = .ok (mk x v) := by
  obtain ⟨hlo, hhi, hn⟩ := hfield
  obtain ⟨sel, hsel⟩ := exists_selField_eq hlo hhi (x.isLt.trans_le hn)
  exact decode_encode_of_make hr (Row.indexed_make_iff.mpr ⟨x, hsel, rfl⟩)

/-- The operations of row `k` of the table, which has two adjacent index fields. -/
theorem decode_encode_of_indexed2 (k : Nat) {pat mask : BitVec 15} {hi mid lo n n' : Nat}
    {mk : Fin n → Fin n' → Word → Instr} (hr : busRows[k]? = some (Row.indexed2 pat mask hi (mid + 1) n mid lo n' mk))
    (hfield : lo ≤ mid ∧ mid < hi ∧ hi < 15 ∧ n' = 2 ^ (mid + 1 - lo) ∧ n' * n ≤ 2 ^ (hi + 1 - lo)) (x : Fin n)
    (y : Fin n') (v : Word) : decode (encode (mk x y v)) = .ok (mk x y v) := by
  obtain ⟨hlo, hmid, hhi, hn', hn⟩ := hfield
  obtain ⟨sel, hsel⟩ := exists_selField_eq (hlo.trans hmid.le) hhi ((mul_add_lt x y).trans_le hn)
  obtain ⟨hx, hy⟩ := (selField_adjacent_iff hmid hlo hn' sel x y).mpr hsel
  exact decode_encode_of_make hr (Row.indexed2_make_iff.mpr ⟨(x, y), hx, hy, rfl⟩)

/-- R122, R123: no row stands at an offset that the maps list as unmapped. -/
theorem decodeBus_of_unmapped {win : Window} {off : BitVec 12} (h : win.listsUnmapped off.toNat = true) (write : Bool)
    (v : Word) : decodeBus write win off v = if write then .wUnmapped win off v else .rUnmapped win off := by
  have hnone : busRows.findSome? (fun r => r.select (selector write win off) v) = none := by
    rw [List.findSome?_eq_none_iff]
    intro r hr
    refine Option.eq_none_iff_forall_ne_some.mpr fun i hi => ?_
    obtain ⟨write', win', off', ⟨-, hlt, hmapped⟩, hsel, -⟩ := (busRows_faithful r hr).sound _ v i hi
    obtain ⟨-, rfl, rfl⟩ := selector_inj hsel
    rw [BitVec.toNat_ofNat, Nat.mod_eq_of_lt hlt, hmapped] at h
    cases h
  rw [decodeBus, hnone]

theorem decode_busRequest_of_unmapped {win : Window} {off : BitVec 12} (h : win.unmappedWord off.toNat = true)
    (write : Bool) (v : Word) : decode (busRequest write win off.toNat v) =
      .ok (if write then .wUnmapped win off v else .rUnmapped win off) := by
  obtain ⟨h4, hlists⟩ := Bool.and_eq_true_iff.mp h
  have hoff : off.toNat % 4 = 0 ∧ off.toNat < 0x1000 := ⟨by simpa using h4, off.isLt⟩
  rw [decode_busRequest write win hoff, BitVec.ofNat_toNat, BitVec.setWidth_eq, decodeBus_of_unmapped hlists]
  cases write <;> rfl

/-- Settles O1, operation by operation: a register at one offset by evaluation, an array of registers by its row of the
table, and an unmapped access because no row stands at its offset. -/
theorem decodeEncodeRoundTrip : Obligations.DecodeEncodeRoundTrip := by
  unfold Obligations.DecodeEncodeRoundTrip
  intro i hwf
  cases i with
  | rGpioLevelLo | wGpioLevelLo _ | rGpioLevelHi | wGpioLevelHi _ | rGpioARawLo | wGpioARawLo _ | rGpioARawHi
  | wGpioARawHi _ | rGpioAStatusLo | wGpioAStatusLo _ | rGpioAStatusHi | wGpioAStatusHi _ | rGpioAEnableLo
  | wGpioAEnableLo _ | rGpioAEnableHi | wGpioAEnableHi _ | rGpioAClearLo | wGpioAClearLo _ | rGpioAClearHi
  | wGpioAClearHi _ | rGpioBRawLo | wGpioBRawLo _ | rGpioBRawHi | wGpioBRawHi _ | rGpioBStatusLo | wGpioBStatusLo _
  | rGpioBStatusHi | wGpioBStatusHi _ | rGpioBEnableLo | wGpioBEnableLo _ | rGpioBEnableHi | wGpioBEnableHi _
  | rGpioBClearLo | wGpioBClearLo _ | rGpioBClearHi | wGpioBClearHi _ | rDutyIntRaw | wDutyIntRaw _ | rDutyIntStatus
  | wDutyIntStatus _ | rDutyIntEnable | wDutyIntEnable _ | rDutyIntClear | wDutyIntClear _ | rStrmIntRaw
  | wStrmIntRaw _ | rStrmIntStatus | wStrmIntStatus _ | rStrmIntEnable | wStrmIntEnable _ | rStrmIntClear
  | wStrmIntClear _ => rfl
  | rGpioPinCfg x => exact decode_encode_of_indexed 36 rfl (by decide) x 0
  | wGpioPinCfg x v => exact decode_encode_of_indexed 37 rfl (by decide) x v
  | rGpioOutsel x => exact decode_encode_of_indexed 38 rfl (by decide) x 0
  | wGpioOutsel x v => exact decode_encode_of_indexed 39 rfl (by decide) x v
  | rGpioInsel x => exact decode_encode_of_indexed 40 rfl (by decide) x 0
  | wGpioInsel x v => exact decode_encode_of_indexed 41 rfl (by decide) x v
  | rDutyChConf x => exact decode_encode_of_indexed 42 rfl (by decide) x 0
  | wDutyChConf x v => exact decode_encode_of_indexed 43 rfl (by decide) x v
  | rDutyChDuty x => exact decode_encode_of_indexed 44 rfl (by decide) x 0
  | wDutyChDuty x v => exact decode_encode_of_indexed 45 rfl (by decide) x v
  | rDutyChFade x => exact decode_encode_of_indexed 46 rfl (by decide) x 0
  | wDutyChFade x v => exact decode_encode_of_indexed 47 rfl (by decide) x v
  | rDutyChPct x => exact decode_encode_of_indexed 48 rfl (by decide) x 0
  | wDutyChPct x v => exact decode_encode_of_indexed 49 rfl (by decide) x v
  | rMcmpTmrCfg x => exact decode_encode_of_indexed 58 rfl (by decide) x 0
  | wMcmpTmrCfg x v => exact decode_encode_of_indexed 59 rfl (by decide) x v
  | rMcmpOpMode x => exact decode_encode_of_indexed 60 rfl (by decide) x 0
  | wMcmpOpMode x v => exact decode_encode_of_indexed 61 rfl (by decide) x v
  | rMcmpOpCmpa x => exact decode_encode_of_indexed 62 rfl (by decide) x 0
  | wMcmpOpCmpa x v => exact decode_encode_of_indexed 63 rfl (by decide) x v
  | rMcmpOpCmpb x => exact decode_encode_of_indexed 64 rfl (by decide) x 0
  | wMcmpOpCmpb x v => exact decode_encode_of_indexed 65 rfl (by decide) x v
  | rStrmChConf x => exact decode_encode_of_indexed 66 rfl (by decide) x 0
  | wStrmChConf x v => exact decode_encode_of_indexed 67 rfl (by decide) x v
  | rStrmRam n x => exact decode_encode_of_indexed2 76 rfl (by decide) n x 0
  | wStrmRam n x v => exact decode_encode_of_indexed2 77 rfl (by decide) n x v
  | rUnmapped win off => exact decode_busRequest_of_unmapped hwf false 0
  | wUnmapped win off v => exact decode_busRequest_of_unmapped hwf true v
  | pinIn p v => simp [encode, decode, Bool.toNat_le]
  | announce sig level param => simp [encode, decode, Bool.toNat_le]
  | fireMcmp o k => simp [encode, decode, Nat.le_of_lt_succ k.isLt]
  | fireDuty n | fireStrm n => simp [encode, decode]
  | advance t | reset => rfl

/-! Encoding what was decoded. -/

/-- Some well-formed operations are the read and the writes of the word at an offset. -/
def HasOperations (win : Window) (off : Nat) : Prop :=
  ∃ (rd : Instr) (wr : Word → Instr), (rd.wf = true ∧ encode rd = .busRead win off 32) ∧
    ∀ v, (wr v).wf = true ∧ encode (wr v) = .busWrite win off 32 v

theorem hasOperations_unmapped {win : Window} {off : Nat} (h : off % 4 = 0 ∧ off < 0x1000)
    (hun : win.listsUnmapped off = true) : HasOperations win off := by
  have hoff : (BitVec.ofNat 12 off).toNat = off := by rw [BitVec.toNat_ofNat, Nat.mod_eq_of_lt h.2]
  have hwf : win.unmappedWord (BitVec.ofNat 12 off).toNat = true := by
    rw [hoff, Window.unmappedWord, h.1, hun]
    rfl
  refine ⟨.rUnmapped win (BitVec.ofNat 12 off), .wUnmapped win (BitVec.ofNat 12 off), ⟨hwf, ?_⟩, fun v => ⟨hwf, ?_⟩⟩
  · rw [encode, hoff]
  · rw [encode, hoff]

/-- An offset in a register's array is the offset of one of its indices. -/
theorem exists_index {off o s n : Nat} (h : o ≤ off ∧ off < o + s * n ∧ (off - o) % s = 0) :
    ∃ x : Fin n, off = o + s * x.val := by
  obtain ⟨hlo, hhi, hmod⟩ := h
  have hmul : off = o + s * ((off - o) / s) := by
    have hdiv := Nat.div_add_mod (off - o) s
    omega
  refine ⟨⟨(off - o) / s, ?_⟩, hmul⟩
  exact Nat.lt_of_mul_lt_mul_left (a := s) (by omega)

/-- The levels and the latch words of R95. -/
theorem hasOperations_gpio_latch {off : Nat} (h : Window.gpio.MappedWord off) (hlow : off < 0x100) :
    HasOperations .gpio off := by
  have hoff : off = 0x000 ∨ off = 0x004 ∨ off = 0x010 ∨ off = 0x014 ∨ off = 0x018 ∨ off = 0x01C ∨ off = 0x020 ∨
      off = 0x024 ∨ off = 0x028 ∨ off = 0x02C ∨ off = 0x030 ∨ off = 0x034 ∨ off = 0x038 ∨ off = 0x03C ∨ off = 0x040 ∨
      off = 0x044 ∨ off = 0x048 ∨ off = 0x04C := by
    rw [mappedWord_gpio_iff] at h
    omega
  rcases hoff with rfl | rfl | rfl | rfl | rfl | rfl | rfl | rfl | rfl | rfl | rfl | rfl | rfl | rfl | rfl | rfl |
    rfl | rfl
  · exact ⟨.rGpioLevelLo, .wGpioLevelLo, ⟨rfl, rfl⟩, fun _ => ⟨rfl, rfl⟩⟩
  · exact ⟨.rGpioLevelHi, .wGpioLevelHi, ⟨rfl, rfl⟩, fun _ => ⟨rfl, rfl⟩⟩
  · exact ⟨.rGpioARawLo, .wGpioARawLo, ⟨rfl, rfl⟩, fun _ => ⟨rfl, rfl⟩⟩
  · exact ⟨.rGpioARawHi, .wGpioARawHi, ⟨rfl, rfl⟩, fun _ => ⟨rfl, rfl⟩⟩
  · exact ⟨.rGpioAStatusLo, .wGpioAStatusLo, ⟨rfl, rfl⟩, fun _ => ⟨rfl, rfl⟩⟩
  · exact ⟨.rGpioAStatusHi, .wGpioAStatusHi, ⟨rfl, rfl⟩, fun _ => ⟨rfl, rfl⟩⟩
  · exact ⟨.rGpioAEnableLo, .wGpioAEnableLo, ⟨rfl, rfl⟩, fun _ => ⟨rfl, rfl⟩⟩
  · exact ⟨.rGpioAEnableHi, .wGpioAEnableHi, ⟨rfl, rfl⟩, fun _ => ⟨rfl, rfl⟩⟩
  · exact ⟨.rGpioAClearLo, .wGpioAClearLo, ⟨rfl, rfl⟩, fun _ => ⟨rfl, rfl⟩⟩
  · exact ⟨.rGpioAClearHi, .wGpioAClearHi, ⟨rfl, rfl⟩, fun _ => ⟨rfl, rfl⟩⟩
  · exact ⟨.rGpioBRawLo, .wGpioBRawLo, ⟨rfl, rfl⟩, fun _ => ⟨rfl, rfl⟩⟩
  · exact ⟨.rGpioBRawHi, .wGpioBRawHi, ⟨rfl, rfl⟩, fun _ => ⟨rfl, rfl⟩⟩
  · exact ⟨.rGpioBStatusLo, .wGpioBStatusLo, ⟨rfl, rfl⟩, fun _ => ⟨rfl, rfl⟩⟩
  · exact ⟨.rGpioBStatusHi, .wGpioBStatusHi, ⟨rfl, rfl⟩, fun _ => ⟨rfl, rfl⟩⟩
  · exact ⟨.rGpioBEnableLo, .wGpioBEnableLo, ⟨rfl, rfl⟩, fun _ => ⟨rfl, rfl⟩⟩
  · exact ⟨.rGpioBEnableHi, .wGpioBEnableHi, ⟨rfl, rfl⟩, fun _ => ⟨rfl, rfl⟩⟩
  · exact ⟨.rGpioBClearLo, .wGpioBClearLo, ⟨rfl, rfl⟩, fun _ => ⟨rfl, rfl⟩⟩
  · exact ⟨.rGpioBClearHi, .wGpioBClearHi, ⟨rfl, rfl⟩, fun _ => ⟨rfl, rfl⟩⟩

/-- The three tables of R95 follow the latch words. -/
theorem hasOperations_gpio {off : Nat} (h : Window.gpio.MappedWord off) : HasOperations .gpio off := by
  have hoff : off < 0x100 ∨ (0x100 ≤ off ∧ off < 0x100 + 4 * 49 ∧ (off - 0x100) % 4 = 0) ∨
      (0x200 ≤ off ∧ off < 0x200 + 4 * 49 ∧ (off - 0x200) % 4 = 0) ∨
      0x400 ≤ off ∧ off < 0x400 + 4 * 256 ∧ (off - 0x400) % 4 = 0 := by
    rw [mappedWord_gpio_iff] at h
    omega
  rcases hoff with hlow | hcfg | hout | hin
  · exact hasOperations_gpio_latch h hlow
  · obtain ⟨p, rfl⟩ := exists_index hcfg
    exact ⟨.rGpioPinCfg p, .wGpioPinCfg p, ⟨rfl, rfl⟩, fun _ => ⟨rfl, rfl⟩⟩
  · obtain ⟨p, rfl⟩ := exists_index hout
    exact ⟨.rGpioOutsel p, .wGpioOutsel p, ⟨rfl, rfl⟩, fun _ => ⟨rfl, rfl⟩⟩
  · obtain ⟨s, rfl⟩ := exists_index hin
    exact ⟨.rGpioInsel s, .wGpioInsel s, ⟨rfl, rfl⟩, fun _ => ⟨rfl, rfl⟩⟩

/-- R96: the four words of a channel and the four latch words. -/
theorem hasOperations_duty {off : Nat} (h : Window.duty.MappedWord off) : HasOperations .duty off := by
  have hoff : (0x000 ≤ off ∧ off < 0x000 + 16 * 8 ∧ (off - 0x000) % 16 = 0) ∨
      (0x004 ≤ off ∧ off < 0x004 + 16 * 8 ∧ (off - 0x004) % 16 = 0) ∨
      (0x008 ≤ off ∧ off < 0x008 + 16 * 8 ∧ (off - 0x008) % 16 = 0) ∨
      (0x00C ≤ off ∧ off < 0x00C + 16 * 8 ∧ (off - 0x00C) % 16 = 0) ∨
      off = 0x0C0 ∨ off = 0x0C4 ∨ off = 0x0C8 ∨ off = 0x0CC := by
    rw [mappedWord_duty_iff] at h
    omega
  rcases hoff with hconf | hduty | hfade | hpct | rfl | rfl | rfl | rfl
  · obtain ⟨n, rfl⟩ := exists_index hconf
    rw [Nat.zero_add]
    exact ⟨.rDutyChConf n, .wDutyChConf n, ⟨rfl, rfl⟩, fun _ => ⟨rfl, rfl⟩⟩
  · obtain ⟨n, rfl⟩ := exists_index hduty
    exact ⟨.rDutyChDuty n, .wDutyChDuty n, ⟨rfl, rfl⟩, fun _ => ⟨rfl, rfl⟩⟩
  · obtain ⟨n, rfl⟩ := exists_index hfade
    exact ⟨.rDutyChFade n, .wDutyChFade n, ⟨rfl, rfl⟩, fun _ => ⟨rfl, rfl⟩⟩
  · obtain ⟨n, rfl⟩ := exists_index hpct
    exact ⟨.rDutyChPct n, .wDutyChPct n, ⟨rfl, rfl⟩, fun _ => ⟨rfl, rfl⟩⟩
  · exact ⟨.rDutyIntRaw, .wDutyIntRaw, ⟨rfl, rfl⟩, fun _ => ⟨rfl, rfl⟩⟩
  · exact ⟨.rDutyIntStatus, .wDutyIntStatus, ⟨rfl, rfl⟩, fun _ => ⟨rfl, rfl⟩⟩
  · exact ⟨.rDutyIntEnable, .wDutyIntEnable, ⟨rfl, rfl⟩, fun _ => ⟨rfl, rfl⟩⟩
  · exact ⟨.rDutyIntClear, .wDutyIntClear, ⟨rfl, rfl⟩, fun _ => ⟨rfl, rfl⟩⟩

/-- R97: the timers and the three words of an operator. -/
theorem hasOperations_mcmp {off : Nat} (h : Window.mcmp.MappedWord off) : HasOperations .mcmp off := by
  have hoff : (0x000 ≤ off ∧ off < 0x000 + 4 * 3 ∧ (off - 0x000) % 4 = 0) ∨
      (0x040 ≤ off ∧ off < 0x040 + 16 * 3 ∧ (off - 0x040) % 16 = 0) ∨
      (0x044 ≤ off ∧ off < 0x044 + 16 * 3 ∧ (off - 0x044) % 16 = 0) ∨
      0x048 ≤ off ∧ off < 0x048 + 16 * 3 ∧ (off - 0x048) % 16 = 0 := by
    rw [mappedWord_mcmp_iff] at h
    omega
  rcases hoff with htmr | hmode | hcmpa | hcmpb
  · obtain ⟨t, rfl⟩ := exists_index htmr
    rw [Nat.zero_add]
    exact ⟨.rMcmpTmrCfg t, .wMcmpTmrCfg t, ⟨rfl, rfl⟩, fun _ => ⟨rfl, rfl⟩⟩
  · obtain ⟨o, rfl⟩ := exists_index hmode
    exact ⟨.rMcmpOpMode o, .wMcmpOpMode o, ⟨rfl, rfl⟩, fun _ => ⟨rfl, rfl⟩⟩
  · obtain ⟨o, rfl⟩ := exists_index hcmpa
    exact ⟨.rMcmpOpCmpa o, .wMcmpOpCmpa o, ⟨rfl, rfl⟩, fun _ => ⟨rfl, rfl⟩⟩
  · obtain ⟨o, rfl⟩ := exists_index hcmpb
    exact ⟨.rMcmpOpCmpb o, .wMcmpOpCmpb o, ⟨rfl, rfl⟩, fun _ => ⟨rfl, rfl⟩⟩

/-- R98: the word of a channel, the four latch words, and the rings, of which word i of channel n is word 64n + i. -/
theorem hasOperations_strm {off : Nat} (h : Window.strm.MappedWord off) : HasOperations .strm off := by
  have hoff : (0x000 ≤ off ∧ off < 0x000 + 16 * 4 ∧ (off - 0x000) % 16 = 0) ∨
      off = 0x0C0 ∨ off = 0x0C4 ∨ off = 0x0C8 ∨ off = 0x0CC ∨
      0x400 ≤ off ∧ off < 0x400 + 4 * 256 ∧ (off - 0x400) % 4 = 0 := by
    rw [mappedWord_strm_iff] at h
    omega
  rcases hoff with hconf | rfl | rfl | rfl | rfl | hram
  · obtain ⟨n, rfl⟩ := exists_index hconf
    rw [Nat.zero_add]
    exact ⟨.rStrmChConf n, .wStrmChConf n, ⟨rfl, rfl⟩, fun _ => ⟨rfl, rfl⟩⟩
  · exact ⟨.rStrmIntRaw, .wStrmIntRaw, ⟨rfl, rfl⟩, fun _ => ⟨rfl, rfl⟩⟩
  · exact ⟨.rStrmIntStatus, .wStrmIntStatus, ⟨rfl, rfl⟩, fun _ => ⟨rfl, rfl⟩⟩
  · exact ⟨.rStrmIntEnable, .wStrmIntEnable, ⟨rfl, rfl⟩, fun _ => ⟨rfl, rfl⟩⟩
  · exact ⟨.rStrmIntClear, .wStrmIntClear, ⟨rfl, rfl⟩, fun _ => ⟨rfl, rfl⟩⟩
  · obtain ⟨x, rfl⟩ := exists_index hram
    have hword : 0x400 + 4 * x.val = 0x400 + 256 * (x.val / 64) + 4 * (x.val % 64) := by omega
    rw [hword]
    exact ⟨.rStrmRam ⟨x.val / 64, by omega⟩ ⟨x.val % 64, by omega⟩,
      .wStrmRam ⟨x.val / 64, by omega⟩ ⟨x.val % 64, by omega⟩, ⟨rfl, rfl⟩, fun _ => ⟨rfl, rfl⟩⟩

/-- R95 to R98: every aligned offset of a window is a register's or is listed as unmapped. -/
theorem hasOperations (win : Window) {off : Nat} (h : off % 4 = 0 ∧ off < 0x1000) : HasOperations win off := by
  cases hun : win.listsUnmapped off with
  | true => exact hasOperations_unmapped h hun
  | false =>
    have hmapped : win.MappedWord off := ⟨h.1, h.2, hun⟩
    cases win with
    | gpio => exact hasOperations_gpio hmapped
    | duty => exact hasOperations_duty hmapped
    | mcmp => exact hasOperations_mcmp hmapped
    | strm => exact hasOperations_strm hmapped

/-- Every request that decodes is the request of some well-formed operation. -/
theorem exists_encode_eq {r : Request} {i : Instr} (h : decode r = .ok i) :
    ∃ j : Instr, j.wf = true ∧ encode j = r := by
  cases r with
  | busRead win off width =>
    obtain ⟨rfl, h4, hle⟩ := (busReject_eq_none_iff off width).mp ((decode_busRead_ok_iff win off width).mp ⟨i, h⟩)
    obtain ⟨rd, -, hrd, -⟩ := hasOperations win ⟨h4, Nat.lt_succ_of_le hle⟩
    exact ⟨rd, hrd⟩
  | busWrite win off width v =>
    obtain ⟨rfl, h4, hle⟩ := (busReject_eq_none_iff off width).mp ((decode_busWrite_ok_iff win off width v).mp ⟨i, h⟩)
    obtain ⟨-, wr, -, hwr⟩ := hasOperations win ⟨h4, Nat.lt_succ_of_le hle⟩
    exact ⟨wr v, hwr v⟩
  | pinIn p v =>
    obtain ⟨hp, hv⟩ := (decode_pinIn_ok_iff p v).mp ⟨i, h⟩
    exact ⟨.pinIn ⟨p, Nat.lt_succ_of_le hp⟩ (v == 1), rfl, congrArg _ (beq_one_toNat hv)⟩
  | announce sig level param =>
    obtain ⟨hsig, hlevel⟩ := (decode_announce_ok_iff sig level param).mp ⟨i, h⟩
    exact ⟨.announce ⟨sig, Nat.lt_succ_of_le hsig⟩ (level == 1) param, rfl,
      congrArg (Request.announce sig · param) (beq_one_toNat hlevel)⟩
  | advance t => exact ⟨.advance t, rfl, rfl⟩
  | fireDuty n =>
    rw [decode] at h
    split_ifs at h with hn
    exact ⟨.fireDuty ⟨n, hn⟩, rfl, rfl⟩
  | fireMcmp o k =>
    rw [decode] at h
    split_ifs at h with ho hk
    exact ⟨.fireMcmp ⟨o, ho⟩ ⟨k, hk⟩, rfl, rfl⟩
  | fireStrm n =>
    rw [decode] at h
    split_ifs at h with hn
    exact ⟨.fireStrm ⟨n, hn⟩, rfl, rfl⟩
  | reset => exact ⟨.reset, rfl, rfl⟩
  | junk w => cases h

/-- Settles O2: a request that decodes is the request of a well-formed operation, which by the round trip is what it
decodes to. -/
theorem decodedRequestsAreEncodings : Obligations.DecodedRequestsAreEncodings := by
  unfold Obligations.DecodedRequestsAreEncodings
  intro r i h
  obtain ⟨j, hwf, rfl⟩ := exists_encode_eq h
  have hround := decodeEncodeRoundTrip j hwf
  cases h.symm.trans hround
  exact ⟨hwf, rfl⟩

/-! Table words. -/

/-- R106: the number whose request the encoder writes for an operation stands for that operation. -/
theorem decodeTableWord_eq_some {nbits w : Nat} {i : Instr} (hwf : i.wf = true)
    (hw : requestOfBits (w % 2 ^ nbits) = encode i) : decodeTableWord nbits w = some i := by
  rw [decodeTableWord, hw, decodeEncodeRoundTrip i hwf]
  rfl

/-- Settles O5: each word is taken apart into the request of its operation. -/
theorem writtenOutWordsDecode : Obligations.WrittenOutWordsDecode := by
  unfold Obligations.WrittenOutWordsDecode
  exact ⟨decodeTableWord_eq_some rfl (by decide), decodeTableWord_eq_some rfl (by decide),
    decodeTableWord_eq_some rfl (by decide), decodeTableWord_eq_some rfl (by decide),
    decodeTableWord_eq_some rfl (by decide), decodeTableWord_eq_some rfl (by decide)⟩

end Sys2Proof
end

section
/-! PROOF. After the script word `RUN t` nothing is due (30_encoding.md R107). -/

namespace Sys2Proof.Machine

/-- Where the least deadline is later than t, so is every deadline. -/
theorem State.lt_deadline_of_nextDeadline {s : State} {t : Nat} (h : ∀ d, s.nextDeadline = some d → t < d)
    {tok : Token} {d : Nat} (hd : s.sched.get tok = some d) : t < d := by
  have hmem : d ∈ Token.all.filterMap s.sched.get := List.mem_filterMap.mpr ⟨tok, Token.mem_all tok, hd⟩
  cases hn : s.nextDeadline with
  | none =>
    rw [State.nextDeadline, List.min?_eq_none_iff] at hn
    rw [hn] at hmem
    cases hmem
  | some m => exact (h m hn).trans_le ((List.min?_eq_some_iff.mp hn).2 d hmem)

/-- 30_encoding.md R107: `RUN t` is a round at the least deadline and then `RUN t` again, or, with no deadline up to t,
the last advance. -/
theorem runTo_succ_eq_some {fuel t : Nat} {s u : State} (h : s.runTo t (fuel + 1) = some u) :
    (∃ d s', s.nextDeadline = some d ∧ d ≤ t ∧ runOps (s.roundOps d) s = .next s' ∧ s'.runTo t fuel = some u) ∨
      (∀ d, s.nextDeadline = some d → t < d) ∧ exec (.advance t) s = .next u := by
  rw [State.runTo] at h
  split at h
  · next d hd =>
    split_ifs at h with hle
    · split at h
      · next s' hs' => exact .inl ⟨d, s', hd, hle, hs', h⟩
      · cases h
    · split at h
      · next s' hs' =>
        cases h
        refine .inr ⟨fun d' hd' => ?_, hs'⟩
        cases hd.symm.trans hd'
        exact Nat.lt_of_not_le hle
      · cases h
  · next hnone =>
    split at h
    · next s' hs' =>
      cases h
      exact .inr ⟨fun d hd => (by cases hnone.symm.trans hd), hs'⟩
    · cases h

/-- Settles O48, by induction on the bound on the rounds: a round leaves `RUN t` to be run again, and the last advance
moves `now` alone. -/
theorem runLeavesNothingDue : Obligations.RunLeavesNothingDue := by
  unfold Obligations.RunLeavesNothingDue
  intro fuel t
  induction fuel with
  | zero => intro s u h; cases h
  | succ fuel ih =>
    intro s u h
    obtain ⟨-, s', -, -, -, hrest⟩ | ⟨hlater, hadvance⟩ := runTo_succ_eq_some h
    · exact ih s' u hrest
    · obtain ⟨-, rfl⟩ := exec_advance_next hadvance
      exact ⟨rfl, fun _ _ => State.lt_deadline_of_nextDeadline hlater⟩

end Sys2Proof.Machine
end

section
/-! PROOF. Accesses in the wrong direction and at unmapped offsets (40_bus_dispatch.md R122, R123, R124). -/

namespace Sys2Proof

open Sys2Proof.Machine

/-- R95 to R98: each list of unmapped offsets ends inside the 4 KiB window. -/
theorem Window.lt_of_listsUnmapped {win : Window} {off : Nat} (h : win.listsUnmapped off = true) : off < 0x1000 := by
  cases win <;> simp [Window.listsUnmapped, Window.between] at h <;> omega

/-- R86: an unmapped offset fits the twelve offset bits of a selector. -/
theorem Window.exists_toNat_eq_of_unmappedWord {win : Window} {off : Nat} (h : win.unmappedWord off = true) :
    ∃ o : BitVec 12, o.toNat = off := by
  obtain ⟨-, hlists⟩ := Bool.and_eq_true_iff.mp h
  exact ⟨BitVec.ofNat 12 off, by rw [BitVec.toNat_ofNat, Nat.mod_eq_of_lt (Window.lt_of_listsUnmapped hlists)]⟩

/-- 40_bus_dispatch.md R122, R124: the answer of a register or an offset that has no word to read. -/
theorem Machine.readZero_eq (s : State) : readZero s = .next (s.respond 0) := rfl

/-- 40_bus_dispatch.md R122. -/
theorem Machine.exec_rUnmapped (win : Window) (off : BitVec 12) (s : State) :
    exec (.rUnmapped win off) s = .next (s.respond 0) := readZero_eq s

/-- Settles O8: the dropped writes by their common rule, the `CLEAR` reads because each is `readZero`, and an unmapped
offset because no row of the decoder stands there, so that the two unmapped operations answer. -/
theorem wrongDirectionAndUnmappedAccessesAreHarmless : Obligations.WrongDirectionAndUnmappedAccessesAreHarmless := by
  unfold Obligations.WrongDirectionAndUnmappedAccessesAreHarmless
  refine ⟨fun i s h => exec_of_isDroppedWrite h s, fun s => ?_, fun s win off v h => ?_⟩
  · have hzero := readZero_eq s
    exact ⟨hzero, hzero, hzero, hzero, hzero, hzero⟩
  · obtain ⟨o, rfl⟩ := Window.exists_toNat_eq_of_unmappedWord h
    have hread := decode_busRequest_of_unmapped h false v
    have hwrite := decode_busRequest_of_unmapped h true v
    exact ⟨.rUnmapped win o, .wUnmapped win o v, hread, exec_rUnmapped win o s, hwrite, exec_of_isDroppedWrite rfl s⟩

end Sys2Proof
end

section
/-! PROOF. The latch groups as their registers show and write them (41_interrupt_latch.md): the lines (R132), the words of the
two `GPIO` contexts (R141 to R144), and the words of `DUTY` and `STRM` (R145 to R149). -/

namespace Sys2Proof.Machine

open Sys2Proof.Safety

/-! Fields, halves and requests. -/

/-- 30_encoding.md R91: a field of a written word, bit by bit. -/
theorem fieldOf_getLsbD (v : Word) (lo w i : Nat) :
    (fieldOf v lo w).getLsbD i = (decide (i < w) && v.getLsbD (lo + i)) :=
  BitVec.getLsbD_extractLsb' ..

/-- R87: what an operation's own request decodes to. -/
theorem decode_of_encode_eq {i : Instr} {r : Request} (hwf : i.wf = true) (h : encode i = r) : decode r = .ok i :=
  h ▸ decodeEncodeRoundTrip i hwf

/-- 30_encoding.md R94: the `_LO` or `_HI` word of a pin vector. -/
def halfWord (hi : Bool) (x : BitVec 49) : Word := if hi then pinsHi x else pinsLo x

theorem carriesHalf_halfWord (hi : Bool) (x : BitVec 49) : CarriesHalf hi x (halfWord hi x) := by
  intro i h
  cases hi with
  | false => exact (pinsLo_getLsbD x i).trans (by simp [h])
  | true => exact pinsHi_getLsbD x i

/-- R94: the word of pin p's half carries it at its own bit. -/
theorem pinBit_of_carriesHalf {hi : Bool} {x : BitVec 49} {w : Word} (h : CarriesHalf hi x w) {p : PinIx}
    (hp : inHalf hi p = true) : pinBit w p = x.getLsbD p.val := by
  have hbit := h (p.val % 32) (Nat.mod_lt _ (by decide))
  have hlt := p.isLt
  cases hi with
  | false =>
    have hlow : p.val % 32 = p.val := Nat.mod_eq_of_lt (by simpa [inHalf] using hp)
    simpa [pinBit, hlow] using hbit
  | true =>
    have hhigh : 32 ≤ p.val := by simpa [inHalf] using hp
    have hsmall : p.val % 32 < 17 := by omega
    have hpin : 32 + p.val % 32 = p.val := by omega
    simpa [pinBit, hsmall, hpin] using hbit

theorem inHalf_decide (p : PinIx) : inHalf (decide (32 ≤ p.val)) p = true := beq_self_eq_true _

/-! The lines. -/

/-- Settles O10, group by group: a line is the OR of its groups, and a group is active when some bit of it is both raised and
enabled. -/
theorem linesAreTheOrOfPendingEnabledSources : Obligations.LinesAreTheOrOfPendingEnabledSources := by
  unfold Obligations.LinesAreTheOrOfPendingEnabledSources
  intro s
  refine ⟨?_, s.duty.latch.active_iff, s.strm.latch.active_iff, rfl⟩
  rw [State.gpioIrq, Bool.or_eq_true, Latch.active_iff, Latch.active_iff]
  constructor
  · rintro (⟨p, hp⟩ | ⟨p, hp⟩)
    · exact ⟨.a, p, hp⟩
    · exact ⟨.b, p, hp⟩
  · rintro ⟨c, p, hp⟩
    cases c with
    | a => exact .inl ⟨p, hp⟩
    | b => exact .inr ⟨p, hp⟩

/-! The words of the `GPIO` contexts. -/

theorem exec_rawRead (c : Ctx) (hi : Bool) (s : State) :
    exec (rawRead c hi) s = .next (s.respond (halfWord hi (s.gpio.latch c).raw)) := by
  cases c <;> cases hi <;> rfl

theorem exec_statusRead (c : Ctx) (hi : Bool) (s : State) :
    exec (statusRead c hi) s = .next (s.respond (halfWord hi (s.gpio.latch c).status)) := by
  cases c <;> cases hi <;> rfl

theorem exec_enableRead (c : Ctx) (hi : Bool) (s : State) :
    exec (enableRead c hi) s = .next (s.respond (halfWord hi (s.gpio.latch c).enable)) := by
  cases c <;> cases hi <;> rfl

/-- Settles O11: each read answers the half of one of the three views. -/
theorem gpioLatchWordsRead : Obligations.GpioLatchWordsRead := by
  unfold Obligations.GpioLatchWordsRead
  intro s c hi
  exact ⟨⟨_, exec_rawRead c hi s, carriesHalf_halfWord hi _⟩, ⟨_, exec_statusRead c hi s, carriesHalf_halfWord hi _⟩,
    ⟨_, exec_enableRead c hi s, carriesHalf_halfWord hi _⟩⟩

/-- R95: the offsets of the enable words. -/
theorem encode_enableWrite (c : Ctx) (hi : Bool) (v : Word) : encode (enableWrite c hi v) =
    .busWrite .gpio ((if c = .a then 0x020 else 0x040) + (if hi then 4 else 0)) 32 v := by
  cases c <;> cases hi <;> rfl

/-- R95: the offsets of the clear masks. -/
theorem encode_clearWrite (c : Ctx) (hi : Bool) (v : Word) : encode (clearWrite c hi v) =
    .busWrite .gpio ((if c = .a then 0x028 else 0x048) + (if hi then 4 else 0)) 32 v := by
  cases c <;> cases hi <;> rfl

theorem enableWrite_wf (c : Ctx) (hi : Bool) (v : Word) : (enableWrite c hi v).wf = true := by
  cases c <;> cases hi <;> rfl

theorem clearWrite_wf (c : Ctx) (hi : Bool) (v : Word) : (clearWrite c hi v).wf = true := by
  cases c <;> cases hi <;> rfl

/-- Settles O12: the write stores one half of one context's enable vector. -/
theorem enableWriteSetsTheGateBits : Obligations.EnableWriteSetsTheGateBits := by
  unfold Obligations.EnableWriteSetsTheGateBits
  intro s c hi v
  exact ⟨decode_of_encode_eq (enableWrite_wf c hi v) (encode_enableWrite c hi v), _, exec_enableWrite c hi v s, rfl,
    setHalf_getLsbD hi _ v⟩

/-- 41_interrupt_latch.md R140: the pins whose level condition holds, by type and level. -/
theorem Gpio.stillTrue_eq (g : Gpio) (p : PinIx) : g.stillTrue p =
    decide ((g.trig.get p = 4 ∧ g.level.getLsbD p.val = false) ∨ (g.trig.get p = 5 ∧ g.level.getLsbD p.val = true)) := by
  rw [Bool.eq_iff_iff]
  simp [Gpio.stillTrue]

/-- 41_interrupt_latch.md R143: the raw bits a clear mask leaves. -/
theorem Gpio.clear_setHalf_raw (g : Gpio) (l : Latch 49) (hi : Bool) (v : Word) (p : PinIx) :
    (l.clear (setHalf hi 0 v) g.stillTrueMask).raw.getLsbD p.val =
      (l.raw.getLsbD p.val && !(inHalf hi p && pinBit v p && !g.stillTrue p)) := by
  have hmask : (setHalf hi 0 v).getLsbD p.val = (inHalf hi p && pinBit v p) := by
    rw [setHalf_getLsbD]
    cases inHalf hi p <;> simp
  rw [Latch.clear_raw_getLsbD, hmask, Gpio.stillTrueMask_getLsbD]

/-- Settles O13: of the pins the mask names, those whose level condition still holds are spared. -/
theorem clearWriteSparesStillTrueLevels : Obligations.ClearWriteSparesStillTrueLevels := by
  unfold Obligations.ClearWriteSparesStillTrueLevels
  intro s c hi v
  refine ⟨decode_of_encode_eq (clearWrite_wf c hi v) (encode_clearWrite c hi v), _, exec_clearWrite c hi v s, rfl,
    fun p => ?_⟩
  rw [Gpio.clear_setHalf_raw, Gpio.stillTrue_eq]

/-! The two views of the gate bits. -/

/-- 30_encoding.md R99: where a `PINp_CFG` word holds the gate bit of a context. -/
def gateBit (c : Ctx) : Nat := if c = .a then 3 else 4

theorem pinCfgWord_gates (trig : BitVec 3) (a b : Bool) :
    (pinCfgWord trig a b).getLsbD 3 = a ∧ (pinCfgWord trig a b).getLsbD 4 = b := by
  simp only [pinCfgWord, BitVec.getLsbD_append]
  simp

/-- 41_interrupt_latch.md R141: the gate bit of a `PINp_CFG` read is the enable bit. -/
theorem exec_rGpioPinCfg_gate (s : State) (c : Ctx) (p : PinIx) : ∃ w, exec (.rGpioPinCfg p) s = .next (s.respond w) ∧
    w.getLsbD (gateBit c) = (s.gpio.latch c).enable.getLsbD p.val := by
  refine ⟨_, rfl, ?_⟩
  obtain ⟨ha, hb⟩ := pinCfgWord_gates (s.gpio.trig.get p) (s.gpio.ctxA.enable.getLsbD p.val)
    (s.gpio.ctxB.enable.getLsbD p.val)
  cases c with
  | a => exact ha
  | b => exact hb

/-- The read of the enable word that carries pin p shows its enable bit. -/
theorem exec_enableRead_pin (s : State) (c : Ctx) (p : PinIx) :
    ∃ w, exec (enableRead c (decide (32 ≤ p.val))) s = .next (s.respond w) ∧
      pinBit w p = (s.gpio.latch c).enable.getLsbD p.val :=
  ⟨_, exec_enableRead c _ s, pinBit_of_carriesHalf (carriesHalf_halfWord _ _) (inHalf_decide p)⟩

/-- 42_gpio_trigger.md R169: a `PINp_CFG` write stores the gate bits of its pin. -/
theorem exec_wGpioPinCfg_gate (s : State) (c : Ctx) (p : PinIx) (v : Word) : ∃ t, exec (.wGpioPinCfg p v) s = .next t ∧
    (t.gpio.latch c).enable.getLsbD p.val = v.getLsbD (gateBit c) := by
  refine ⟨_, rfl, ?_⟩
  cases c with
  | a => exact (setPin_getLsbD _ p p _).trans (if_pos rfl)
  | b => exact (setPin_getLsbD _ p p _).trans (if_pos rfl)

/-- 41_interrupt_latch.md R142: the write of the enable word that carries pin p stores its enable bit. -/
theorem exec_enableWrite_pin (s : State) (c : Ctx) (p : PinIx) (v : Word) :
    ∃ t, exec (enableWrite c (decide (32 ≤ p.val)) v) s = .next t ∧
      (t.gpio.latch c).enable.getLsbD p.val = pinBit v p := by
  refine ⟨_, exec_enableWrite c _ v s, ?_⟩
  rw [State.withGpio_gpio, Gpio.latch_setLatch, if_pos rfl, Latch.setEnable_enable, setHalf_getLsbD,
    if_pos (inHalf_decide p)]

/-- Settles O14: both views show the enable bit, and both writes store it. -/
theorem enableWordsAndPinWordsAgree : Obligations.EnableWordsAndPinWordsAgree := by
  unfold Obligations.EnableWordsAndPinWordsAgree
  intro s c p v
  refine ⟨?_, ?_, ?_⟩
  · obtain ⟨wp, hp, hgate⟩ := exec_rGpioPinCfg_gate s c p
    obtain ⟨we, he, hbit⟩ := exec_enableRead_pin s c p
    exact ⟨wp, we, hp, he, hgate.trans hbit.symm, hgate⟩
  · obtain ⟨t, ht, hstored⟩ := exec_wGpioPinCfg_gate s c p v
    obtain ⟨w, hw, hbit⟩ := exec_enableRead_pin t c p
    exact ⟨t, w, ht, hw, hbit.trans hstored⟩
  · obtain ⟨t, ht, hstored⟩ := exec_enableWrite_pin s c p v
    obtain ⟨w, hw, hgate⟩ := exec_rGpioPinCfg_gate t c p
    exact ⟨t, w, ht, hw, hgate.trans hstored⟩

/-! The words of `DUTY` and `STRM`. -/

/-- 41_interrupt_latch.md R145, R139: a `DUTY` clear spares no named bit. -/
theorem Latch.clear_fieldOf_raw (l : Latch 8) (v : Word) (n : DutyIx) :
    (l.clear (fieldOf v 0 8) 0).raw.getLsbD n.val = (l.raw.getLsbD n.val && !v.getLsbD n.val) := by
  rw [Latch.clear_raw_getLsbD, fieldOf_getLsbD, decide_eq_true n.isLt, Bool.true_and, Nat.zero_add, BitVec.ofNat_eq_ofNat,
    BitVec.getLsbD_zero, Bool.not_false, Bool.and_true]

/-- Settles O15: the eight bits of the word are its field 7:0. -/
theorem dutyIntClearAndEnableWrites : Obligations.DutyIntClearAndEnableWrites := by
  unfold Obligations.DutyIntClearAndEnableWrites
  intro s v
  refine ⟨decode_of_encode_eq (i := .wDutyIntClear v) rfl rfl, decode_of_encode_eq (i := .wDutyIntEnable v) rfl rfl,
    ⟨_, rfl, s.duty.latch.clear_fieldOf_raw v⟩, ⟨_, rfl, fun n => ?_⟩⟩
  rw [fieldOf_getLsbD, decide_eq_true n.isLt, Bool.true_and, Nat.zero_add]

/-- 30_encoding.md R100. -/
theorem dutyLatchWord_toNat (x : BitVec 8) : (dutyLatchWord x).toNat = x.toNat := zero_append_toNat x

/-- 30_encoding.md R101. -/
theorem strmLatchWord_toNat (x : BitVec 16) : (strmLatchWord x).toNat = (x &&& 0x0F0F).toNat := zero_append_toNat _

/-- Settles O16: the reads answer the latch words of the three views, and `INT_CLEAR` has no word to read. -/
theorem dutyAndStrmLatchWordsRead : Obligations.DutyAndStrmLatchWordsRead := by
  unfold Obligations.DutyAndStrmLatchWordsRead
  intro s
  exact ⟨⟨_, rfl, dutyLatchWord_toNat _⟩, ⟨_, rfl, dutyLatchWord_toNat _⟩, ⟨_, rfl, dutyLatchWord_toNat _⟩, readZero_eq s,
    ⟨_, rfl, strmLatchWord_toNat _⟩, ⟨_, rfl, strmLatchWord_toNat _⟩, ⟨_, rfl, strmLatchWord_toNat _⟩, readZero_eq s⟩

/-- 10_state.md R45: the implemented bits, 3:0 and 11:8. -/
theorem strmLatchMask_getLsbD : ∀ b : Fin 16,
    strmLatchMask.getLsbD b.val = decide (b.val ≤ 3 ∨ (8 ≤ b.val ∧ b.val ≤ 11)) := by decide

/-- Settles O17: of the sixteen bits of the word the mask keeps the implemented ones. -/
theorem strmIntEnableSetsTheImplementedBits : Obligations.StrmIntEnableSetsTheImplementedBits := by
  unfold Obligations.StrmIntEnableSetsTheImplementedBits
  intro s v
  refine ⟨decode_of_encode_eq (i := .wStrmIntEnable v) rfl rfl, _, rfl, fun b => ?_⟩
  rw [strmLatchOf, BitVec.getLsbD_and, fieldOf_getLsbD, decide_eq_true b.isLt, Bool.true_and, Nat.zero_add,
    strmLatchMask_getLsbD, Bool.and_comm]

end Sys2Proof.Machine
end

section
/-! PROOF. What lowers a raw bit (41_interrupt_latch.md R151): a clear write that names it, or `RESET`, and nothing else. -/

namespace Sys2Proof.Machine

open Sys2Proof.Safety

/-- R151: no raised bit is lowered. -/
def RawKept {w : Nat} (old new : BitVec w) : Prop := ∀ b : Fin w, old.getLsbD b.val = true → new.getLsbD b.val = true

theorem RawKept.refl {w : Nat} (x : BitVec w) : RawKept x x := fun _ h => h

theorem RawKept.trans {w : Nat} {x y z : BitVec w} (h : RawKept x y) (k : RawKept y z) : RawKept x z :=
  fun b hb => k b (h b hb)

theorem RawKept.not_lowered {w : Nat} {old new : BitVec w} (h : RawKept old new) {b : Fin w}
    (h0 : old.getLsbD b.val = true) : ¬ new.getLsbD b.val = false :=
  ne_false_of_eq_true (h b h0)

/-- 41_interrupt_latch.md R133. -/
theorem rawKept_of_setsBit {w b : Nat} {old new : BitVec w} (h : SetsBit old new b) : RawKept old new :=
  fun i hi => by rw [h i.val i.isLt, hi, Bool.true_or]

theorem Latch.rawKept_hwSet {w : Nat} (l : Latch w) (b : Nat) : RawKept l.raw (l.hwSet b).raw :=
  rawKept_of_setsBit (l.hwSet_setsBit b)

/-! Pins. -/

/-- 42_gpio_trigger.md R165: a fire only raises. -/
theorem Gpio.rawKept_setLevel (g : Gpio) (p : PinIx) (v : Bool) (c : Ctx) :
    RawKept (g.latch c).raw ((g.setLevel p v).latch c).raw := by
  obtain ⟨-, -, -, -, hctx⟩ := g.setLevel_spec p v
  exact fun j hj => by rw [(hctx c).2 j, hj, Bool.true_or]

/-- 42_gpio_trigger.md R167, R168. -/
theorem Gpio.rawKept_setLevels (g : Gpio) {ps : List PinIx} (hn : ps.Nodup) (x : BitVec 49) (c : Ctx) :
    RawKept (g.latch c).raw ((g.setLevels ps x).latch c).raw := by
  obtain ⟨-, -, -, -, hctx⟩ := g.setLevels_spec ps hn x
  exact fun j hj => by rw [(hctx c).2 j, hj, Bool.true_or]

/-- 41_interrupt_latch.md R142. -/
theorem Gpio.rawKept_setEnable (g : Gpio) (c' : Ctx) (e : BitVec 49) (c : Ctx) :
    RawKept (g.latch c).raw ((g.setLatch c' ((g.latch c').setEnable e)).latch c).raw := by
  rw [Gpio.latch_setLatch]
  split_ifs with hc
  · exact hc ▸ .refl _
  · exact .refl _

theorem rawKept_of_levelWrite {hi : Bool} {v : Word} {s t : State} (he : exec (levelWrite hi v) s = .next t) (c : Ctx) :
    RawKept (s.gpio.latch c).raw (t.gpio.latch c).raw := by
  cases (exec_levelWrite hi v s).symm.trans he
  exact s.gpio.rawKept_setLevels (halfPins_nodup hi) _ c

theorem rawKept_of_enableWrite {c' : Ctx} {hi : Bool} {v : Word} {s t : State}
    (he : exec (enableWrite c' hi v) s = .next t) (c : Ctx) : RawKept (s.gpio.latch c).raw (t.gpio.latch c).raw := by
  cases (exec_enableWrite c' hi v s).symm.trans he
  exact s.gpio.rawKept_setEnable c' _ c

/-- 20_memory.md R62: of the operations of `GPIO` only the clear writes lower a raw bit. -/
theorem rawKept_of_reach_gpio {i : Instr} {s t : State} (h : reach i = .gpio) (he : exec i s = .next t)
    (hclear : ∀ c hi v, i ≠ clearWrite c hi v) (c : Ctx) : RawKept (s.gpio.latch c).raw (t.gpio.latch c).raw := by
  match i, h with
  | .wGpioLevelLo v, _ => exact rawKept_of_levelWrite (hi := false) he c
  | .wGpioLevelHi v, _ => exact rawKept_of_levelWrite (hi := true) he c
  | .wGpioAEnableLo v, _ => exact rawKept_of_enableWrite (c' := .a) (hi := false) he c
  | .wGpioAEnableHi v, _ => exact rawKept_of_enableWrite (c' := .a) (hi := true) he c
  | .wGpioBEnableLo v, _ => exact rawKept_of_enableWrite (c' := .b) (hi := false) he c
  | .wGpioBEnableHi v, _ => exact rawKept_of_enableWrite (c' := .b) (hi := true) he c
  | .wGpioAClearLo v, _ => exact absurd rfl (hclear .a false v)
  | .wGpioAClearHi v, _ => exact absurd rfl (hclear .a true v)
  | .wGpioBClearLo v, _ => exact absurd rfl (hclear .b false v)
  | .wGpioBClearHi v, _ => exact absurd rfl (hclear .b true v)
  | .wGpioPinCfg p v, _ => cases he; cases c <;> exact .refl _
  | .wGpioOutsel p v, _ => cases he; cases c <;> exact .refl _
  | .wGpioInsel sig v, _ => cases he; cases c <;> exact .refl _
  | .pinIn p v, _ => cases he; exact s.gpio.rawKept_setLevel p v c

/-- 41_interrupt_latch.md R143: a clear write lowers, in its own context, pins that it names and that are not spared. -/
theorem clearWrite_lowers {c c' : Ctx} {hi : Bool} {v : Word} {s t : State} (he : exec (clearWrite c' hi v) s = .next t)
    {p : PinIx} (h0 : (s.gpio.latch c).raw.getLsbD p.val = true) (h1 : (t.gpio.latch c).raw.getLsbD p.val = false) :
    c' = c ∧ inHalf hi p = true ∧ pinBit v p = true ∧ s.gpio.stillTrue p = false := by
  cases (exec_clearWrite c' hi v s).symm.trans he
  rw [State.withGpio_gpio, Gpio.latch_setLatch] at h1
  split_ifs at h1 with hc
  · subst hc
    rw [Gpio.clear_setHalf_raw, h0] at h1
    simp only [Bool.true_and, Bool.not_eq_false', Bool.and_eq_true, Bool.not_eq_true'] at h1
    obtain ⟨⟨hhalf, hnamed⟩, hstill⟩ := h1
    exact ⟨rfl, hhalf, hnamed, hstill⟩
  · exact absurd h1 (RawKept.not_lowered (.refl _) h0)

/-- R151, for the contexts of `GPIO`. -/
theorem gpioRaw_lowered {i : Instr} {s t : State} (he : exec i s = .next t) (hne : reach i ≠ .everything) {c : Ctx}
    {p : PinIx} (h0 : (s.gpio.latch c).raw.getLsbD p.val = true) (h1 : (t.gpio.latch c).raw.getLsbD p.val = false) :
    ∃ hi v, i = clearWrite c hi v ∧ inHalf hi p = true ∧ pinBit v p = true ∧ s.gpio.stillTrue p = false := by
  by_cases hclear : ∃ c' hi v, i = clearWrite c' hi v
  · obtain ⟨c', hi, v, rfl⟩ := hclear
    obtain ⟨rfl, hnamed⟩ := clearWrite_lowers he h0 h1
    exact ⟨hi, v, rfl, hnamed⟩
  · have hkept : RawKept (s.gpio.latch c).raw (t.gpio.latch c).raw := by
      by_cases hr : reach i = .gpio
      · exact rawKept_of_reach_gpio hr he (fun c' hi v hi' => hclear ⟨c', hi, v, hi'⟩) c
      · rw [(exec_frame he hne).1 hr]
        exact .refl _
    exact absurd h1 (hkept.not_lowered h0)

/-! The duty engine's bits. -/

/-- 44_duty_timer.md R214, R215: the callback only raises. -/
theorem rawKept_firedLatch (l : Latch 8) (n : DutyIx) (c : DutyCh) : RawKept l.raw (firedLatch l n c).raw := by
  unfold firedLatch fadedLatch
  split_ifs
  · exact l.rawKept_hwSet n.val
  · exact .refl _
  · exact .refl _

/-- R151, for `DUTY`. -/
theorem dutyRaw_lowered {i : Instr} {s t : State} (he : exec i s = .next t) (hne : reach i ≠ .everything) {n : DutyIx}
    (h0 : s.duty.latch.raw.getLsbD n.val = true) (h1 : t.duty.latch.raw.getLsbD n.val = false) :
    ∃ v, i = .wDutyIntClear v ∧ v.getLsbD n.val = true := by
  by_cases hl : reach i = .dutyLatch
  · match i, hl with
    | .wDutyIntEnable v, _ => cases he; exact absurd h1 (RawKept.not_lowered (.refl _) h0)
    | .wDutyIntClear v, _ =>
      cases he
      rw [State.withDuty_duty, Latch.clear_fieldOf_raw, h0, Bool.true_and, Bool.not_eq_false'] at h1
      exact ⟨v, rfl, h1⟩
  · have hkept : RawKept s.duty.latch.raw t.duty.latch.raw := by
      by_cases hd : ∃ m, reach i = .duty m
      · obtain ⟨m, hm⟩ := hd
        obtain ⟨l, rfl | ⟨-, rfl⟩, c, d, es, rfl, -⟩ := exec_of_reach_duty hm he
        · exact .refl _
        · exact rawKept_firedLatch _ m _
      · rw [(exec_frame he hne).2.1 hl (not_exists.mp hd)]
        exact .refl _
    exact absurd h1 (hkept.not_lowered h0)

/-! The streaming engine's bits. -/

/-- 46_stream_waveform.md R280: a tick only raises. -/
theorem State.rawKept_drain (s : State) (n : StrmIx) : RawKept s.strm.latch.raw (s.drain n).strm.latch.raw := by
  rcases s.drain_drained n with ⟨_, he⟩ | ⟨_, _, q, he, hl, _⟩ | ⟨_, _, j, _, _, _, q, he, _, _, hraw⟩ |
    ⟨_, _, _, q, x, he, _, _, hraw, _⟩ <;> rw [he]
  · exact .refl _
  · rw [State.withStrm_strm, hl]
    exact .refl _
  · exact rawKept_of_setsBit hraw
  · exact rawKept_of_setsBit hraw

/-- 46_stream_waveform.md R279. -/
theorem State.rawKept_strmStart (s : State) (n : StrmIx) : RawKept s.strm.latch.raw (s.strmStart n).strm.latch.raw := by
  unfold State.strmStart
  dsimp only
  split_ifs
  · exact State.rawKept_drain (s.setStrmCh n _) n
  · exact .refl _

/-- 46_stream_waveform.md R287: one resume after a clear. -/
theorem State.rawKept_strmResume (s : State) (n : StrmIx) : RawKept s.strm.latch.raw (s.strmResume n).strm.latch.raw := by
  unfold State.strmResume
  split_ifs
  · exact State.rawKept_drain (s.setStrmCh n _) n
  · exact .refl _

theorem State.rawKept_foldl_strmResume (ns : List StrmIx) (s : State) :
    RawKept s.strm.latch.raw (ns.foldl State.strmResume s).strm.latch.raw := by
  induction ns generalizing s with
  | nil => exact .refl _
  | cons n ns ih => exact (s.rawKept_strmResume n).trans (ih _)

/-- 46_stream_waveform.md R285. -/
theorem rawKept_of_wStrmChConf {n : StrmIx} {v : Word} {s t : State} (he : exec (.wStrmChConf n v) s = .next t) :
    RawKept s.strm.latch.raw t.strm.latch.raw := by
  rw [exec_wStrmChConf] at he
  cases he
  split_ifs
  · exact (s.strmStored n v).rawKept_strmStart n
  · exact .refl _

/-- 46_stream_waveform.md R287: the resumes after the acknowledgement lower nothing more. -/
theorem strmIntClear_lowers {v : Word} {s t : State} (he : exec (.wStrmIntClear v) s = .next t) {b : Fin 16}
    (h0 : s.strm.latch.raw.getLsbD b.val = true) (h1 : t.strm.latch.raw.getLsbD b.val = false) :
    v.getLsbD b.val = true := by
  rw [exec_wStrmIntClear] at he
  cases he
  by_contra hv
  have hnot : (strmLatchOf v).getLsbD b.val = false := Bool.eq_false_of_not_eq_true (mt strmLatchOf_getLsbD hv)
  have hcleared : (s.strmCleared v).strm.latch.raw.getLsbD b.val = true := by rw [State.strmCleared_raw, h0, hnot]; rfl
  exact (State.rawKept_foldl_strmResume _ _).not_lowered hcleared h1

/-- R151, for `STRM`. -/
theorem strmRaw_lowered {i : Instr} {s t : State} (he : exec i s = .next t) (hne : reach i ≠ .everything) {b : Fin 16}
    (h0 : s.strm.latch.raw.getLsbD b.val = true) (h1 : t.strm.latch.raw.getLsbD b.val = false) :
    ∃ v, i = .wStrmIntClear v ∧ v.getLsbD b.val = true := by
  have hnot : ¬ RawKept s.strm.latch.raw t.strm.latch.raw :=
    fun hkept => hkept.not_lowered h0 h1
  by_cases hr : reach i = .strm
  · match i, hr with
    | .wStrmChConf n v, _ => exact absurd (rawKept_of_wStrmChConf he) hnot
    | .wStrmIntEnable v, _ => cases he; exact absurd (.refl _) hnot
    | .wStrmIntClear v, _ => exact ⟨v, rfl, strmIntClear_lowers he h0 h1⟩
    | .wStrmRam n j v, _ => cases he; exact absurd (.refl _) hnot
    | .fireStrm n, _ =>
      obtain ⟨-, rfl⟩ := exec_fireStrm_next he
      exact absurd ((s.cancel (.strm n)).rawKept_drain n) hnot
  · rw [(exec_frame he hne).2.2 hr] at hnot
    exact absurd (.refl _) hnot

/-! The statement. -/

/-- Settles O56, group by group: whatever lowers a raised bit is a clear write of its group that names it. -/
theorem rawBitsStayUntilClearedOrReset : Obligations.RawBitsStayUntilClearedOrReset := by
  unfold Obligations.RawBitsStayUntilClearedOrReset
  intro i s t he hreset
  have hne : reach i ≠ .everything := mt eq_reset_of_reach_everything hreset
  refine ⟨fun c p h0 => or_iff_not_imp_left.mpr fun h1 => ?_, fun n h0 => or_iff_not_imp_left.mpr fun h1 => ?_,
    fun b hb h0 => or_iff_not_imp_left.mpr fun h1 => ?_⟩
  · obtain ⟨hi, v, hclear, hhalf, hnamed, hstill⟩ := gpioRaw_lowered he hne h0 (Bool.eq_false_of_not_eq_true h1)
    rw [Gpio.stillTrue_eq, decide_eq_false_iff_not, not_or] at hstill
    exact ⟨hi, v, hclear, hhalf, hnamed, hstill⟩
  · exact dutyRaw_lowered he hne h0 (Bool.eq_false_of_not_eq_true h1)
  · exact strmRaw_lowered (b := ⟨b, hb⟩) he hne h0 (Bool.eq_false_of_not_eq_true h1)

end Sys2Proof.Machine
end

section
/-! PROOF. The trigger decision and the pins' registers (42_gpio_trigger.md): the truth table (R160, R161), what moves a level
(R165 to R168), and what a `PINp_CFG` write stores (R169) and the pin words show (R170). -/

namespace Sys2Proof.Machine

open Sys2Proof.Safety

/-! The trigger decision, type by type. -/

theorem fires_risingEdge (l0 l1 : Bool) : fires 1 l0 l1 = (!l0 && l1) := rfl
theorem fires_fallingEdge (l0 l1 : Bool) : fires 2 l0 l1 = (l0 && !l1) := rfl
theorem fires_anyEdge (l0 l1 : Bool) : fires 3 l0 l1 = (l0 != l1) := rfl
theorem fires_lowLevel (l0 l1 : Bool) : fires 4 l0 l1 = !l1 := rfl
theorem fires_highLevel (l0 l1 : Bool) : fires 5 l0 l1 = l1 := rfl

/-- R161: a trigger type is one of the three that never fire or one of the five rows of R160. -/
theorem trigType_cases (type : BitVec 3) :
    (type = 0 ∨ type = 6 ∨ type = 7) ∨ type = 1 ∨ type = 2 ∨ type = 3 ∨ type = 4 ∨ type = 5 := by
  bv_omega

/-- Settles O9, type by type. -/
theorem triggerTruthTable : Obligations.TriggerTruthTable := by
  unfold Obligations.TriggerTruthTable
  intro type l0 l1
  rcases trigType_cases type with hoff | rfl | rfl | rfl | rfl | rfl
  · rw [fires_off type l0 l1 hoff]
    rcases hoff with rfl | rfl | rfl <;> simp
  · rw [fires_risingEdge]; simp
  · rw [fires_fallingEdge]; simp
  · rw [fires_anyEdge]; simp
  · rw [fires_lowLevel]; simp
  · rw [fires_highLevel]; simp

/-! Level writes and pin input events. -/

theorem mem_halfPins (hi : Bool) (p : PinIx) : p ∈ halfPins hi ↔ inHalf hi p = true := by
  cases hi with
  | false => exact (mem_loPins p).trans (by simp [inHalf])
  | true => exact (mem_hiPins p).trans (by simp [inHalf])

/-- R95: the offsets of the level words. -/
theorem encode_levelWrite (hi : Bool) (v : Word) :
    encode (levelWrite hi v) = .busWrite .gpio (if hi then 0x004 else 0x000) 32 v := by
  cases hi <;> rfl

theorem levelWrite_wf (hi : Bool) (v : Word) : (levelWrite hi v).wf = true := by
  cases hi <;> rfl

/-- R165: where the listed pins are the only ones whose level can differ from `x`, the list drops out of what `SetLevel` over it
does: every pin ends at its level of `x`, and latches if that is a change on which it fires. -/
theorem Gpio.setLevels_pin {g : Gpio} {ps : List PinIx} {x : BitVec 49} (hn : ps.Nodup) {p : PinIx}
    (hkeep : p ∉ ps → x.getLsbD p.val = g.level.getLsbD p.val) :
    (g.setLevels ps x).level.getLsbD p.val = x.getLsbD p.val ∧
    ∀ c : Ctx, ((g.setLevels ps x).latch c).raw.getLsbD p.val = ((g.latch c).raw.getLsbD p.val ||
      (g.level.getLsbD p.val != x.getLsbD p.val &&
        fires (g.trig.get p) (g.level.getLsbD p.val) (x.getLsbD p.val))) := by
  obtain ⟨-, -, -, hlevel, hctx⟩ := g.setLevels_spec ps hn x
  by_cases hp : p ∈ ps
  · exact ⟨(hlevel p).trans (if_pos hp), fun c => by rw [(hctx c).2 p, decide_eq_true hp, Bool.true_and]⟩
  · refine ⟨(hlevel p).trans ((if_neg hp).trans (hkeep hp).symm), fun c => ?_⟩
    rw [(hctx c).2 p, decide_eq_false hp, hkeep hp, bne_self_eq_false, Bool.and_self]

/-- Settles O18: the pins outside the written half keep their bit of the new level vector, so they neither change nor fire. -/
theorem levelWriteLatchesExactlyTheFiringPins : Obligations.LevelWriteLatchesExactlyTheFiringPins := by
  unfold Obligations.LevelWriteLatchesExactlyTheFiringPins
  intro s hi v
  obtain ⟨htrig, hout, hin, -, hctx⟩ :=
    s.gpio.setLevels_spec (halfPins hi) (halfPins_nodup hi) (setHalf hi s.gpio.level v)
  refine ⟨decode_of_encode_eq (levelWrite_wf hi v) (encode_levelWrite hi v), _, exec_levelWrite hi v s, htrig, hout, hin,
    fun p => ?_⟩
  have hnew := setHalf_getLsbD hi s.gpio.level v p
  obtain ⟨hlevel, hraw⟩ := Gpio.setLevels_pin (g := s.gpio) (x := setHalf hi s.gpio.level v) (halfPins_nodup hi) (p := p)
    fun hp => hnew.trans (if_neg (mt (mem_halfPins hi p).mpr hp))
  rw [hnew] at hlevel hraw
  exact ⟨hlevel, fun c => ⟨(hctx c).1, hraw c⟩⟩

/-- Settles O19: the event is one `SetLevel`. -/
theorem pinInputSetsOneLevelAndLatchesOnFire : Obligations.PinInputSetsOneLevelAndLatchesOnFire := by
  unfold Obligations.PinInputSetsOneLevelAndLatchesOnFire
  intro s p v
  obtain ⟨htrig, hout, hin, hlevel, hctx⟩ := s.gpio.setLevel_spec p v
  exact ⟨_, rfl, htrig, hout, hin, fun j => ⟨hlevel j, fun c => ⟨(hctx c).1, (hctx c).2 j⟩⟩⟩

/-! The pin words. -/

theorem vector_set_oneElem {α : Type} {k : Nat} (v : Vector α k) (i : Fin k) (x : α) : OneElem v (Vector.set v i.val x) i x :=
  ⟨(vector_get_set v i i x).trans (if_pos rfl), fun j hj => (vector_get_set v i j x).trans (if_neg hj)⟩

/-- 30_encoding.md R91: the field at the low end of a word. -/
theorem fieldOf_zero_eq_ofNat (v : Word) (w : Nat) : fieldOf v 0 w = BitVec.ofNat w v.toNat := by
  rw [fieldOf_eq_ofNat, Nat.pow_zero, Nat.div_one]

/-- Settles O20: one entry of the type table and one bit of each enable vector are replaced. -/
theorem pinCfgWriteStoresTypeAndGates : Obligations.PinCfgWriteStoresTypeAndGates := by
  unfold Obligations.PinCfgWriteStoresTypeAndGates
  intro s p v
  refine ⟨decode_of_encode_eq (i := .wGpioPinCfg p v) rfl rfl, _, _, _, rfl, ?_,
    fun j => ⟨setPin_getLsbD _ p j _, setPin_getLsbD _ p j _⟩⟩
  rw [← fieldOf_zero_eq_ofNat]
  exact vector_set_oneElem s.gpio.trig p _

/-- 30_encoding.md R99: the word as the sum of its scaled fields. -/
theorem pinCfgWord_toNat (trig : BitVec 3) (a b : Bool) :
    (pinCfgWord trig a b).toNat = trig.toNat + 2 ^ 3 * a.toNat + 2 ^ 4 * b.toNat := by
  rw [pinCfgWord, append_toNat_add, append_toNat_add, zero_append_toNat, BitVec.toNat_ofBool, BitVec.toNat_ofBool]
  omega

/-- Settles O21: the level words are the two halves of the levels. -/
theorem levelAndPinCfgWordsRead : Obligations.LevelAndPinCfgWordsRead := by
  unfold Obligations.LevelAndPinCfgWordsRead
  intro s p
  exact ⟨⟨_, rfl, carriesHalf_halfWord false s.gpio.level⟩, ⟨_, rfl, carriesHalf_halfWord true s.gpio.level⟩,
    ⟨_, rfl, pinCfgWord_toNat _ _ _⟩⟩

end Sys2Proof.Machine
end

section
/-! PROOF. The crossbar's routing tables (43_gpio_crossbar.md): what a write stores (R186, R187), what the words show (R188),
which pins an announcement reaches (R190, R191), and the forced pins and input signals (R192, R193). -/

namespace Sys2Proof.Machine

/-! Reads and announcements. -/

theorem exec_rGpioOutsel (p : PinIx) (s : State) :
    exec (.rGpioOutsel p) s = .next (s.respond (outSelWord (s.gpio.outsel.get p))) := rfl

theorem exec_rGpioInsel (sig : SigIx) (s : State) :
    exec (.rGpioInsel sig) s = .next (s.respond (inSelWord (s.gpio.insel.get sig))) := rfl

theorem exec_announce (sig : SigIx) (level : Bool) (q : Option Word) (s : State) :
    exec (.announce sig level q) s = .next (s.announce sig.val level q) := rfl

/-! Announcements. -/

/-- R190: the events name the bound pins. -/
theorem mem_map_boundPins_iff (g : Gpio) (sig : Nat) (level : Bool) (q : Option Word) (e : Event) :
    e ∈ (g.boundPins sig).map (fun p => .pinOut p level q) ↔
      ∃ p : PinIx, e = .pinOut p level q ∧ (g.outsel.get p).force = false ∧ (g.outsel.get p).sel.toNat = sig := by
  rw [List.mem_map]
  refine exists_congr fun p => ?_
  rw [g.mem_boundPins, and_comm, eq_comm]

/-- R190: the events stand in the order of the scan. -/
theorem map_boundPins_ascending (g : Gpio) (sig : Nat) (level : Bool) (q : Option Word) :
    ((g.boundPins sig).map (fun p => Event.pinOut p level q)).Pairwise
      (fun a b => ∀ p p', a = .pinOut p level q → b = .pinOut p' level q → p < p') := by
  refine List.pairwise_map.mpr ((g.boundPins_sorted sig).imp fun hlt p p' ha hb => ?_)
  cases ha
  cases hb
  exact hlt

/-- Settles O24: the events are the bound pins, mapped in the order of the scan. -/
theorem announceForwardsToBoundPinsOnly : Obligations.AnnounceForwardsToBoundPinsOnly := by
  unfold Obligations.AnnounceForwardsToBoundPinsOnly
  intro s sig level q
  exact ⟨_, exec_announce sig level q s, mem_map_boundPins_iff s.gpio sig.val level q,
    map_boundPins_ascending s.gpio sig.val level q⟩

/-! The words of the routing tables. -/

/-- Settles O22: each write replaces one entry of its table by the fields of the word. -/
theorem routingWritesStoreOneEntry : Obligations.RoutingWritesStoreOneEntry := by
  unfold Obligations.RoutingWritesStoreOneEntry
  refine ⟨fun s p v => ⟨decode_of_encode_eq (i := .wGpioOutsel p v) rfl rfl, _, rfl, ?_⟩,
    fun s sig v => ⟨decode_of_encode_eq (i := .wGpioInsel sig v) rfl rfl, _, rfl, ?_⟩⟩
  · rw [← fieldOf_zero_eq_ofNat]
    exact vector_set_oneElem s.gpio.outsel p (outSelOf v)
  · rw [← fieldOf_zero_eq_ofNat]
    exact vector_set_oneElem s.gpio.insel sig (inSelOf v)

/-- 30_encoding.md R99: the word as the sum of its scaled fields. -/
theorem outSelWord_toNat (e : OutSel) :
    (outSelWord e).toNat = e.sel.toNat + 2 ^ 8 * e.force.toNat + 2 ^ 9 * e.fval.toNat := by
  rw [outSelWord, append_toNat_add, append_toNat_add, zero_append_toNat, BitVec.toNat_ofBool, BitVec.toNat_ofBool]
  omega

/-- R99: the word as the sum of its scaled fields. -/
theorem inSelWord_toNat (e : InSel) :
    (inSelWord e).toNat = e.pin.toNat + 2 ^ 6 * e.inv.toNat + 2 ^ 7 * e.force.toNat + 2 ^ 8 * e.fval.toNat := by
  rw [inSelWord, append_toNat_add, append_toNat_add, append_toNat_add, zero_append_toNat, BitVec.toNat_ofBool,
    BitVec.toNat_ofBool, BitVec.toNat_ofBool]
  omega

/-- 10_state.md R50: after `RESET` every entry of both tables is forced to 0. -/
theorem exec_reset_routing (s : State) : ∃ t, exec .reset s = .next t ∧
    (∀ p, t.gpio.outsel.get p = ⟨0, true, false⟩) ∧ ∀ sig, t.gpio.insel.get sig = ⟨0, false, true, false⟩ := by
  obtain ⟨t, he, -, -, -, -, -, -, hout, hin, -⟩ := resetGivesTheTabledValues.1 s
  exact ⟨t, he, hout, hin⟩

/-- Settles O23: a read answers the word of its entry, and the entries after `RESET` are known. -/
theorem routingWordsRead : Obligations.RoutingWordsRead := by
  unfold Obligations.RoutingWordsRead
  intro s p sig
  obtain ⟨t, he, hout, hin⟩ := exec_reset_routing s
  refine ⟨⟨_, exec_rGpioOutsel p s, outSelWord_toNat _⟩, ⟨_, exec_rGpioInsel sig s, inSelWord_toNat _⟩, t, he, ?_, ?_⟩
  · have hword : outSelWord (t.gpio.outsel.get p) = 0x100 := by rw [hout]; decide
    rw [exec_rGpioOutsel, hword]
  · have hword : inSelWord (t.gpio.insel.get sig) = 0x080 := by rw [hin]; decide
    rw [exec_rGpioInsel, hword]

/-! Forced pins and input signals. -/

/-- R193: a pin index past the last pin reads as level 0, so that only the invert bit is left. -/
theorem level_xor_inv_eq (x : BitVec 49) (i : Nat) (inv : Bool) :
    (x.getLsbD i ^^ inv) = if h : i ≤ 48 then x[i] != inv else inv := by
  split
  · next h => rw [BitVec.getLsbD_eq_getElem (Nat.lt_succ_of_le h), Bool.bne_eq_xor]
  · next h => rw [BitVec.getLsbD_of_ge x i (Nat.lt_of_not_le h), Bool.false_xor]

/-- R192: an announcement with every pin forced emits nothing. -/
theorem State.announce_of_forced {s : State} (h : ∀ p, (s.gpio.outsel.get p).force = true) (sig : Nat) (level : Bool)
    (q : Option Word) : s.announce sig level q = s := by
  have hnone : s.gpio.boundPins sig = [] := by
    refine List.eq_nil_iff_forall_not_mem.mpr fun p hp => ?_
    obtain ⟨hfree, -⟩ := (s.gpio.mem_boundPins sig p).mp hp
    exact Bool.noConfusion ((h p).symm.trans hfree)
  rw [State.announce, hnone, State.emit, List.map_nil, List.append_nil]
  rfl

/-- Settles O25: the entries alone decide the pin and the signal, and `RESET` forces every entry of both tables to 0. -/
theorem forcedPinsAndInputSignals : Obligations.ForcedPinsAndInputSignals := by
  unfold Obligations.ForcedPinsAndInputSignals
  intro s p sig
  obtain ⟨t, he, hout, hin⟩ := exec_reset_routing s
  refine ⟨rfl, ?_, t, he, ?_, ?_, fun out level q => ?_⟩
  · rw [State.inSignal, level_xor_inv_eq]
  · rw [State.pinForced, hout]
    rfl
  · rw [State.inSignal, hin]
    rfl
  · rw [exec_announce, State.announce_of_forced fun p => by rw [hout]]

end Sys2Proof.Machine
end

section
/-! PROOF. The on and off times of the two toggling engines (44_duty_timer.md R206 to R208,
45_multi_timer_compare.md R242). -/

namespace Sys2Proof.Machine

/-- R208: a resolution of 0 is inert. -/
theorem dutyTimes_of_res_zero (p : Params) {c : DutyCh} (h : c.res = 0) : dutyTimes p c = none :=
  (toggleTimes_none_iff _ _ _ _).mpr (.inr (.inr (.inl (if_pos h))))

/-- R206: under any other resolution the count is a power of two. -/
theorem dutyTimes_of_res_ne_zero (p : Params) {c : DutyCh} (h : c.res ≠ 0) :
    dutyTimes p c = toggleTimes (dutyClk p c.clkSel) c.div.toNat (2 ^ c.res.toNat) c.duty.toNat := by
  rw [dutyTimes, if_neg h]

theorem Oper.cmp_eq (op : Oper) (x : Cmp) : op.cmp x = if x = .a then op.cmpa else op.cmpb := by
  cases x <;> rfl

/-- Settles O26: both engines call the one formula, the duty engine with a power of two as its count. -/
theorem onAndOffTimeFormulas : Obligations.OnAndOffTimeFormulas := by
  unfold Obligations.OnAndOffTimeFormulas
  refine ⟨fun p c => ?_, fun s o x => ?_⟩
  · intro clk maxc period
    by_cases hres : c.res = 0
    · have hzero : c.res.toNat = 0 := (bv_eq_zero_iff _).mp hres
      exact (dutyTimes_of_res_zero p hres).trans (if_pos (.inr (.inr hzero))).symm
    · have hcount : 2 ^ c.res.toNat = 0 ↔ c.res.toNat = 0 :=
        iff_of_false (Nat.two_pow_pos _).ne' (mt (bv_eq_zero_iff _).mpr hres)
      rw [dutyTimes_of_res_ne_zero p hres, toggleTimes_eq _ _ _ _ _ rfl]
      simp only [hcount]
      rfl
  · rw [← Oper.cmp_eq]
    exact toggleTimes_eq _ _ _ _ _ rfl

/-- R206: a duty count of the full count or more asks for an on time of the whole period. -/
theorem le_mul_div_of_le {period maxc d : Nat} (hpos : 0 < maxc) (h : maxc ≤ d) : period ≤ d * period / maxc :=
  (Nat.le_div_iff_mul_le hpos).mpr ((Nat.mul_comm period maxc).trans_le (Nat.mul_le_mul_right period h))

/-- Settles O27: the on time is clamped into [1, period - 1] and the off time is the rest of the period. -/
theorem onAndOffAddUpToThePeriod : Obligations.OnAndOffAddUpToThePeriod := by
  unfold Obligations.OnAndOffAddUpToThePeriod
  refine ⟨fun p c on off h => ?_, fun s o x on off h => ?_⟩
  · have hres : c.res ≠ 0 := fun h0 => nomatch (dutyTimes_of_res_zero p h0).symm.trans h
    rw [dutyTimes_of_res_ne_zero p hres] at h
    obtain ⟨-, -, -, htwo, hsum, hon, hoff, hclamp⟩ := toggleTimes_spec h
    refine ⟨hsum, hon, by omega, hoff, by omega, fun hd => ?_, fun hd => ?_⟩
    · rw [(bv_eq_zero_iff _).mp hd, Nat.zero_mul, Nat.zero_div] at hclamp
      omega
    · have hfull := le_mul_div_of_le (period := c.div.toNat * 2 ^ c.res.toNat * 1000000000 / dutyClk p c.clkSel)
        (Nat.two_pow_pos _) hd
      omega
  · obtain ⟨-, -, -, -, hsum, hon, hoff, -⟩ := toggleTimes_spec h
    exact ⟨hsum, hon, hoff⟩

end Sys2Proof.Machine
end

section
/-! PROOF. The operations of a duty channel: its register writes (44_duty_timer.md R216 to R218), its callback (R214, R215)
and its words (R219, R220). -/

namespace Sys2Proof.Machine

open Sys2Proof.Safety

/-! Starting and stopping a channel whose fields were just stored. -/

theorem State.dutyCh_setDutyCh_self (s : State) (n : DutyIx) (c : DutyCh) : (s.setDutyCh n c).dutyCh n = c :=
  (s.dutyCh_setDutyCh n n c).trans (if_pos rfl)

/-- R212: the configuration is runnable. -/
theorem State.dutyStart_of_times {s : State} {n : DutyIx} {c : DutyCh} {on off : Nat}
    (h : dutyTimes s.params c = some (on, off)) : (s.setDutyCh n c).dutyStart n =
      s.dutyPut n { c with running := true, phase := true } (some (s.now + on))
        (phaseEvents s (s.params.dutySigBase + n.val) c.phase true) := by
  rw [State.dutyStart_eq, State.dutyCh_setDutyCh_self, State.setDutyCh_params, h]
  exact s.dutyPut_setDutyCh n _ _ _ _

/-- R212: the configuration is inert. -/
theorem State.dutyStart_of_inert {s : State} {n : DutyIx} {c : DutyCh} (h : dutyTimes s.params c = none) :
    (s.setDutyCh n c).dutyStart n = s.dutyPut n { c with running := false, phase := false } none
      (phaseEvents s (s.params.dutySigBase + n.val) c.phase false) := by
  rw [State.dutyStart_eq, State.dutyCh_setDutyCh_self, State.setDutyCh_params, h]
  exact s.dutyPut_setDutyCh n _ _ _ _

/-- R213. -/
theorem State.dutyStop_setDutyCh (s : State) (n : DutyIx) (c : DutyCh) :
    (s.setDutyCh n c).dutyStop n = s.dutyPut n { c with running := false, phase := false } none
      (phaseEvents s (s.params.dutySigBase + n.val) c.phase false) := by
  rw [State.dutyStop_eq, State.dutyCh_setDutyCh_self]
  exact s.dutyPut_setDutyCh n _ _ _ _

/-! Register writes. -/

/-- R216: `EN` decides between start and stop. -/
theorem exec_wDutyChConf (s : State) (n : DutyIx) (v : Word) :
    exec (.wDutyChConf n v) s = .next (if v.getLsbD 31 then (s.setDutyCh n (setDutyConf (s.dutyCh n) v)).dutyStart n
      else (s.setDutyCh n (setDutyConf (s.dutyCh n) v)).dutyStop n) := by
  have hen : ((s.setDutyCh n (setDutyConf (s.dutyCh n) v)).dutyCh n).en = v.getLsbD 31 :=
    congrArg DutyCh.en (s.dutyCh_setDutyCh_self n _)
  rw [← hen]
  rfl

/-- R217: only a running channel is re-armed. -/
theorem exec_wDutyChDuty (s : State) (n : DutyIx) (v : Word) :
    exec (.wDutyChDuty n v) s = .next (if (s.dutyCh n).running then
      (s.setDutyCh n { s.dutyCh n with duty := v }).dutyStart n else s.setDutyCh n { s.dutyCh n with duty := v }) := by
  have hrun : ((s.setDutyCh n { s.dutyCh n with duty := v }).dutyCh n).running = (s.dutyCh n).running := by
    rw [State.dutyCh_setDutyCh_self]
  rw [← hrun]
  rfl

/-- 30_encoding.md R100: the stored fields, in naturals. -/
theorem setDutyConf_eq (c : DutyCh) (v : Word) : setDutyConf c v =
    { c with
      res := BitVec.ofNat 5 v.toNat, clkSel := v.getLsbD 5, div := BitVec.ofNat 18 (v.toNat / 2 ^ 6)
      en := v.getLsbD 31 } := by
  rw [setDutyConf, fieldOf_zero_eq_ofNat, fieldOf_eq_ofNat]

theorem setDutyFade_eq (c : DutyCh) (v : Word) : setDutyFade c v =
    { c with
      step := BitVec.ofNat 10 v.toNat, cycles := BitVec.ofNat 10 (v.toNat / 2 ^ 10)
      num := BitVec.ofNat 10 (v.toNat / 2 ^ 20), dir := v.getLsbD 30 } := by
  rw [setDutyFade, fieldOf_zero_eq_ofNat, fieldOf_eq_ofNat, fieldOf_eq_ofNat]

/-- Settles O28: with `EN` 1 the stored configuration is runnable or inert, and with `EN` 0 the channel stops. -/
theorem dutyConfWriteStartsOrStops : Obligations.DutyConfWriteStartsOrStops := by
  unfold Obligations.DutyConfWriteStartsOrStops
  intro s n v
  refine ⟨decode_of_encode_eq (i := .wDutyChConf n v) rfl rfl, ?_⟩
  rw [exec_wDutyChConf, ← setDutyConf_eq]
  intro c
  cases hen : v.getLsbD 31 with
  | false =>
    rw [if_neg Bool.false_ne_true, State.dutyStop_setDutyCh]
    exact ⟨_, _, _, rfl, rfl, vector_set_oneElem _ n _, Sched.set_oneSlot _ _ _, rfl⟩
  | true =>
    cases ht : dutyTimes s.params c with
    | none =>
      rw [if_pos rfl, State.dutyStart_of_inert ht]
      exact ⟨_, _, _, rfl, rfl, vector_set_oneElem _ n _, Sched.set_oneSlot _ _ _, rfl⟩
    | some p =>
      rw [if_pos rfl, State.dutyStart_of_times ht]
      exact ⟨_, _, _, rfl, rfl, vector_set_oneElem _ n _, Sched.set_oneSlot _ _ _, rfl⟩

/-- Settles O29: the write stores the count and, on a running channel, starts it again. -/
theorem dutyWriteReArmsARunningChannel : Obligations.DutyWriteReArmsARunningChannel := by
  unfold Obligations.DutyWriteReArmsARunningChannel
  intro s n v
  refine ⟨decode_of_encode_eq (i := .wDutyChDuty n v) rfl rfl, ?_⟩
  rw [exec_wDutyChDuty]
  intro c
  refine ⟨fun hrun => ?_, fun hrun => ?_⟩
  · rw [hrun]
    exact ⟨_, rfl, vector_set_oneElem _ n _⟩
  · rw [if_pos hrun]
    cases ht : dutyTimes s.params c with
    | none =>
      rw [State.dutyStart_of_inert ht]
      exact ⟨_, _, _, rfl, rfl, vector_set_oneElem _ n _, Sched.set_oneSlot _ _ _, rfl⟩
    | some p =>
      have hc : { c with running := true, phase := true } = { c with phase := true } := by rw [← hrun]
      rw [State.dutyStart_of_times ht, hc]
      exact ⟨_, _, _, rfl, rfl, vector_set_oneElem _ n _, Sched.set_oneSlot _ _ _, rfl⟩

/-- Settles O30: one entry of the channel table is replaced. -/
theorem fadeWriteLoadsTheFadeState : Obligations.FadeWriteLoadsTheFadeState := by
  unfold Obligations.FadeWriteLoadsTheFadeState
  intro s n v
  refine ⟨decode_of_encode_eq (i := .wDutyChFade n v) rfl rfl, _, rfl, ?_⟩
  rw [setDutyFade_eq]
  exact vector_set_oneElem _ n _

/-! The callback. -/

/-- R215: the latch group after the callback: the channel's bit is raised when the last step of a fade is taken on entering
LOW with the bit enabled. -/
theorem firedLatch_eq (l : Latch 8) (n : DutyIx) (c : DutyCh) : firedLatch l n c =
    if c.phase = true ∧ fadeEnds c ∧ l.enable.getLsbD n.val = true then l.hwSet n.val else l := by
  rw [firedLatch, fadedLatch, ← ite_and]

/-- 47_virtual_clock.md R303. -/
theorem exec_fireDuty_of_due {s : State} {n : DutyIx} (h : s.sched.get (.duty n) = some s.now) :
    exec (.fireDuty n) s = .next (s.dutyFire n) := if_pos ((s.due_iff _).mpr h)

/-- Settles O31: the callback writes the toggled and faded channel, its slot and its bit of the latch group. -/
theorem dutyFireTogglesFadesAndReArms : Obligations.DutyFireTogglesFadesAndReArms := by
  unfold Obligations.DutyFireTogglesFadesAndReArms
  intro s n hdue c0 c sig
  have hraw : if c0.phase = true ∧ fadeEnds c0 ∧ s.duty.latch.enable.getLsbD n.val = true then
      SetsBit s.duty.latch.raw (firedLatch s.duty.latch n c0).raw n.val
      else (firedLatch s.duty.latch n c0).raw = s.duty.latch.raw := by
    rw [firedLatch_eq]
    split_ifs
    · exact s.duty.latch.hwSet_setsBit n.val
    · rfl
  obtain ⟨henable, -⟩ := firedLatch_frame s.duty.latch n c0
  have hc : toggledCh (s.dutyCh n) = c := rfl
  rw [exec_fireDuty_of_due hdue, State.dutyFire_eq, hc]
  cases dutyTimes s.params c with
  | none => exact ⟨_, _, _, rfl, henable, hraw, vector_set_oneElem _ n _, Sched.set_oneSlot _ _ _, rfl⟩
  | some p => exact ⟨_, _, _, rfl, henable, hraw, vector_set_oneElem _ n _, Sched.set_oneSlot _ _ _, rfl⟩

/-! Words. -/

/-- 30_encoding.md R100: the word as the sum of its scaled fields. -/
theorem dutyConfWord_toNat (c : DutyCh) : (dutyConfWord c).toNat =
    c.res.toNat + 2 ^ 5 * c.clkSel.toNat + 2 ^ 6 * c.div.toNat + 2 ^ 31 * c.en.toNat := by
  rw [dutyConfWord, append_toNat_add, append_toNat_add, append_toNat_add, append_toNat_add, BitVec.toNat_ofBool,
    BitVec.toNat_ofBool, BitVec.toNat_ofNat]
  omega

/-- R100: the word as the sum of its scaled fields. -/
theorem dutyFadeWord_toNat (c : DutyCh) : (dutyFadeWord c).toNat =
    c.step.toNat + 2 ^ 10 * c.cycles.toNat + 2 ^ 20 * c.num.toNat + 2 ^ 30 * c.dir.toNat := by
  rw [dutyFadeWord, append_toNat_add, append_toNat_add, append_toNat_add, append_toNat_add, BitVec.toNat_ofBool,
    BitVec.toNat_ofNat]
  omega

/-- R219: the readback saturates at 100, so that it fits its word. -/
theorem percent_le (duty res : Nat) : percent duty res ≤ 100 := by
  unfold percent
  split_ifs
  · exact Nat.zero_le _
  · exact Nat.min_le_left _ _

theorem percent_word_toNat (duty res : Nat) : (BitVec.ofNat 32 (percent duty res)).toNat = percent duty res := by
  have hle := percent_le duty res
  rw [BitVec.toNat_ofNat, Nat.mod_eq_of_lt (by omega)]

@[simp] theorem fadedCh_num (c : DutyCh) : (fadedCh c).num = c.num := by
  unfold fadedCh; split_ifs <;> rfl

@[simp] theorem toggledCh_num (c : DutyCh) : (toggledCh c).num = c.num := by
  unfold toggledCh; split_ifs <;> simp

theorem SameFields.num {c c' : DutyCh} (h : SameFields c c') : c'.num = c.num := by
  obtain ⟨r, ph, rfl⟩ := h
  rfl

/-- R214: the callback leaves the toggled and faded channel, perhaps INERT. -/
theorem State.sameFields_dutyFire (s : State) (n : DutyIx) :
    SameFields (toggledCh (s.dutyCh n)) ((s.dutyFire n).dutyCh n) := by
  rw [State.dutyFire_eq]
  cases dutyTimes s.params (toggledCh (s.dutyCh n)) with
  | none => exact ⟨false, false, State.dutyCh_dutyPut _ n _ _ _⟩
  | some p => exact ⟨_, _, State.dutyCh_dutyPut _ n _ _ _⟩

/-- R220: no callback changes the stored `EN` and `NUM`. -/
theorem exec_fireDuty_en_num {m : DutyIx} {s t : State} (h : exec (.fireDuty m) s = .next t) (n : DutyIx) :
    (t.dutyCh n).en = (s.dutyCh n).en ∧ (t.dutyCh n).num = (s.dutyCh n).num := by
  by_cases hm : m = n
  · obtain ⟨-, rfl⟩ := exec_fireDuty_next h
    subst hm
    have hfields := s.sameFields_dutyFire m
    exact ⟨hfields.en.trans (toggledCh_en _), hfields.num.trans (toggledCh_num _)⟩
  · obtain ⟨hstays, -⟩ := staysIn_of_reach_duty rfl h
    obtain ⟨hch, -⟩ := hstays.dutyCh n fun e => hm (Reach.duty.inj e)
    exact ⟨congrArg DutyCh.en hch, congrArg DutyCh.num hch⟩

/-- Settles O32: the words are sums of scaled fields, and the callback stores into neither `EN` nor `NUM`. -/
theorem dutyWordsRead : Obligations.DutyWordsRead := by
  unfold Obligations.DutyWordsRead
  intro s n
  exact ⟨⟨_, rfl, dutyConfWord_toNat _⟩, rfl, ⟨_, rfl, dutyFadeWord_toNat _⟩, ⟨_, rfl, percent_word_toNat _ _⟩,
    fun m t h => exec_fireDuty_en_num h n⟩

end Sys2Proof.Machine
end

section
/-! PROOF. The duty oscillator over time (44_duty_timer.md R209): a channel with no fade configured toggles its phase and
nothing else, so that its deadlines stay on the grid of its start. -/

namespace Sys2Proof.Machine

open Sys2Proof.Safety

/-! One fire without a fade. -/

theorem State.dutyPut_sched_get (s : State) (n : DutyIx) (c : DutyCh) (d : Option Nat) (es : List Event) (tok : Token) :
    (s.dutyPut n c d es).sched.get tok = if tok = .duty n then d else s.sched.get tok := Sched.get_set _ _ _ _

/-- R214, R215. -/
theorem toggledCh_of_noFade {c : DutyCh} (h : NoFade c) : toggledCh c = { c with phase := !c.phase } := by
  unfold toggledCh
  split_ifs with hp
  · rw [fadedCh_of_noFade h, hp]
    rfl
  · rw [Bool.eq_false_of_not_eq_true hp]
    rfl

/-- R215: no step is the last one. -/
theorem not_fadeEnds_of_noFade {c : DutyCh} (h : NoFade c) : ¬ fadeEnds c := by
  rintro ⟨hcycles, -, hremain⟩
  rcases h with h | h <;> omega

theorem firedLatch_of_noFade (l : Latch 8) (n : DutyIx) {c : DutyCh} (h : NoFade c) : firedLatch l n c = l := by
  rw [firedLatch_eq, if_neg]
  rintro ⟨-, hends, -⟩
  exact not_fadeEnds_of_noFade h hends

/-- R214: with no fade configured the callback toggles the phase and arms the other one, and does nothing else but announce
it. -/
theorem State.dutyFire_of_noFade {s : State} {n : DutyIx} {c : DutyCh} {on off : Nat} (hch : s.dutyCh n = c)
    (hf : NoFade c) (ht : dutyTimes s.params c = some (on, off)) :
    s.dutyFire n = s.dutyPut n { c with phase := !c.phase } (some (s.now + if c.phase then off else on))
      (forwards s (s.params.dutySigBase + n.val) (!c.phase) none) := by
  have ht' : dutyTimes s.params { c with phase := !c.phase } = some (on, off) := ht
  rw [State.dutyFire_eq, hch, toggledCh_of_noFade hf, firedLatch_of_noFade _ _ hf, ht']
  cases c.phase <;> rfl

/-! The step invariant. -/

/-- R209 reads the channel, its slot and the parameters only. -/
theorem phaseLocked_congr {n : DutyIx} {t0 period : Nat} {s t : State} (h : PhaseLocked n t0 period s)
    (hch : t.dutyCh n = s.dutyCh n) (hslot : t.sched.get (.duty n) = s.sched.get (.duty n))
    (hparams : t.params = s.params) : PhaseLocked n t0 period t := by
  unfold PhaseLocked
  rwa [hch, hslot, hparams]

/-- A channel written with no fade configured and a deadline on the grid is locked. -/
theorem State.phaseLocked_dutyPut {s : State} {n : DutyIx} {c : DutyCh} {on off d t0 : Nat} (es : List Event) (k : Nat)
    (hf : NoFade c) (ht : dutyTimes s.params c = some (on, off))
    (hd : d = t0 + k * (on + off) + if c.phase then on else on + off) :
    PhaseLocked n t0 (on + off) (s.dutyPut n c (some d) es) := by
  unfold PhaseLocked
  rw [State.dutyCh_dutyPut, State.dutyPut_sched_get, if_pos rfl]
  exact ⟨hf, on, off, k, ht, rfl, congrArg some hd⟩

/-- R214: the end of a HIGH phase arms the end of its period, the end of that LOW phase the end of the next HIGH one, which
begins there. -/
theorem phaseLocked_dutyFire {n : DutyIx} {t0 period : Nat} {s : State} (h : PhaseLocked n t0 period s)
    (hdue : s.sched.get (.duty n) = some s.now) : PhaseLocked n t0 period (s.dutyFire n) ∧
      ((s.dutyCh n).phase = false → ((s.dutyFire n).dutyCh n).phase = true ∧ ∃ k, s.now = t0 + k * period) := by
  obtain ⟨hf, on, off, k, ht, rfl, hslot⟩ := h
  have hnow : s.now = t0 + k * (on + off) + if (s.dutyCh n).phase then on else on + off :=
    Option.some.inj (hdue.symm.trans hslot)
  rw [State.dutyFire_of_noFade rfl hf ht]
  cases hp : (s.dutyCh n).phase with
  | true =>
    refine ⟨State.phaseLocked_dutyPut _ k hf ht ?_, fun h0 => nomatch h0⟩
    rw [hnow, hp]
    exact Nat.add_assoc _ on off
  | false =>
    have hgrid : s.now = t0 + (k + 1) * (on + off) := by
      rw [hnow, hp, Nat.add_one_mul]
      exact Nat.add_assoc _ _ _
    exact ⟨State.phaseLocked_dutyPut _ (k + 1) hf ht (congrArg (· + on) hgrid),
      fun _ => ⟨congrArg DutyCh.phase (s.dutyCh_dutyPut n _ _ _), k + 1, hgrid⟩⟩

/-- Of the operations that reach channel n, its callback alone does not configure it. -/
theorem eq_fireDuty_of_not_reconfigures {i : Instr} {n : DutyIx} (h : reach i = .duty n) (hre : ¬ Reconfigures n i) :
    i = .fireDuty n := by
  match i, h with
  | .wDutyChConf m v, rfl => exact absurd (.inl ⟨v, rfl⟩) hre
  | .wDutyChDuty m v, rfl => exact absurd (.inr (.inl ⟨v, rfl⟩)) hre
  | .wDutyChFade m v, rfl => exact absurd (.inr (.inr (.inl ⟨v, rfl⟩))) hre
  | .fireDuty m, rfl => rfl

/-- R209: an operation either is the callback of the channel or stays outside it. -/
theorem phaseLocked_exec {i : Instr} {n : DutyIx} {t0 period : Nat} {s t : State} (h : PhaseLocked n t0 period s)
    (hre : ¬ Reconfigures n i) (he : exec i s = .next t) : PhaseLocked n t0 period t := by
  by_cases hr : reach i = .duty n
  · obtain rfl := eq_fireDuty_of_not_reconfigures hr hre
    obtain ⟨hdue, rfl⟩ := exec_fireDuty_next he
    exact (phaseLocked_dutyFire h hdue).1
  · have hall : reach i ≠ .everything := fun h0 => hre (.inr (.inr (.inr (eq_reset_of_reach_everything h0))))
    obtain ⟨hstays, hparams, -⟩ := exec_staysIn he
    obtain ⟨hch, hslot, -⟩ := (hstays hall).dutyCh n hr
    exact phaseLocked_congr h hch hslot hparams

/-- Settles O60: a step runs one operation, a start is a channel written with its first deadline, and a callback keeps the
lock. -/
theorem dutyPhaseStaysLocked : Obligations.DutyPhaseStaysLocked := by
  unfold Obligations.DutyPhaseStaysLocked
  refine ⟨fun s t n t0 period h hre hstep => ?_, fun s n v on off hen hf ht => ?_, fun s n t0 period h hlow hdue => ?_⟩
  · cases hs : s.inbox with
    | nil =>
      cases (step_of_inbox_nil hs).symm.trans hstep
      exact h
    | cons r rest =>
      cases hr : decode r with
      | error e => cases (step_of_decode_error hs hr).symm.trans hstep
      | ok i =>
        rw [step_of_decode_ok hs hr] at hstep
        exact phaseLocked_exec (s := s.withInbox rest) h (hre r rest i hs hr) hstep
  · refine ⟨_, (exec_wDutyChConf s n v).trans (congrArg _ (if_pos hen)), ?_⟩
    rw [State.dutyStart_of_times ht, State.dutyCh_dutyPut]
    exact ⟨rfl, State.phaseLocked_dutyPut _ 0 hf ht (by simp)⟩
  · obtain ⟨hlocked, hgrid⟩ := phaseLocked_dutyFire h hdue
    obtain ⟨hhigh, k, hnow⟩ := hgrid hlow
    exact ⟨_, k, exec_fireDuty_of_due hdue, hhigh, (s.dutyFire_now n).trans hnow, hlocked⟩

/-! Many periods. -/

/-- 47_virtual_clock.md R302: a token's deadline is not passed before another token's that is no later. -/
theorem exec_advance_to_deadline {s : State} {tok : Token} {d : Nat} (hd : s.sched.get tok = some d)
    (hnow : s.now ≤ d) (hother : ∀ tok' d', tok' ≠ tok → s.sched.get tok' = some d' → d ≤ d') :
    exec (.advance d) s = .next (s.withNow d) := by
  refine if_pos ((s.advanceEnabled_iff d).mpr ⟨hnow, fun tok' d' hd' => ?_⟩)
  by_cases htok : tok' = tok
  · subst htok
    exact (Option.some.inj (hd.symm.trans hd')).le
  · exact hother tok' d' htok hd'

/-- Channel n is in phase `ph` since `now`, its fields are those of `c`, which has these on and off times and no fade
configured, and no other token has a deadline before `b`. -/
structure InPhaseSinceNow (n : DutyIx) (c : DutyCh) (on off b : Nat) (ph : Bool) (s : State) : Prop where
  ch : s.dutyCh n = { c with phase := ph }
  times : dutyTimes s.params c = some (on, off)
  noFade : NoFade c
  slot : s.sched.get (.duty n) = some (s.now + if ph then on else off)
  others : ∀ tok d, tok ≠ .duty n → s.sched.get tok = some d → b ≤ d

/-- R214: a phase that no other deadline cuts short is followed by the other phase. -/
theorem InPhaseSinceNow.toggle {n : DutyIx} {c : DutyCh} {on off b : Nat} {ph : Bool} {s : State}
    (h : InPhaseSinceNow n c on off b ph s) (hb : s.now + (if ph then on else off) ≤ b) :
    ∃ t, dutyToggle n s = some t ∧ t.now = s.now + (if ph then on else off) ∧ InPhaseSinceNow n c on off b (!ph) t := by
  obtain ⟨hch, ht, hf, hslot, hothers⟩ := h
  have hadvance := exec_advance_to_deadline hslot (Nat.le_add_right _ _)
    fun tok d htok hd => hb.trans (hothers tok d htok hd)
  generalize s.now + (if ph then on else off) = d at hslot hadvance ⊢
  have hfire : exec (.fireDuty n) (s.withNow d) = .next ((s.withNow d).dutyFire n) := exec_fireDuty_of_due hslot
  refine ⟨_, dutyToggle_of_next hslot hadvance hfire, State.dutyFire_now _ n, ?_⟩
  rw [State.dutyFire_of_noFade (s := s.withNow d) hch hf ht]
  refine ⟨State.dutyCh_dutyPut _ n _ _ _, ht, hf, ?_, fun tok d' htok hd' => ?_⟩
  · rw [State.dutyPut_sched_get, if_pos rfl]
    cases ph <;> rfl
  · rw [State.dutyPut_sched_get, if_neg htok] at hd'
    exact hothers tok d' htok hd'

/-- R209: a HIGH phase and the LOW phase after it are one period. -/
theorem InPhaseSinceNow.period {n : DutyIx} {c : DutyCh} {on off b : Nat} {s : State}
    (h : InPhaseSinceNow n c on off b true s) (hb : s.now + (on + off) ≤ b) :
    ∃ t, dutyToggles n 2 s = some t ∧ t.now = s.now + (on + off) ∧ InPhaseSinceNow n c on off b true t := by
  have hon : s.now + on ≤ b := by omega
  obtain ⟨u, hlow, hu, hlowPhase⟩ := h.toggle hon
  have hoff : u.now + off ≤ b := by rw [hu, if_pos rfl]; omega
  obtain ⟨t, hhigh, ht, hhighPhase⟩ := hlowPhase.toggle hoff
  refine ⟨t, ?_, ?_, hhighPhase⟩
  · simp only [dutyToggles, hlow, hhigh, Option.bind_some]
  · rw [ht, hu]
    exact Nat.add_assoc _ on off

/-- R209, by induction on the number of periods. -/
theorem InPhaseSinceNow.periods {n : DutyIx} {c : DutyCh} {on off b : Nat} (k : Nat) {s : State}
    (h : InPhaseSinceNow n c on off b true s) (hb : s.now + k * (on + off) ≤ b) :
    ∃ t, dutyToggles n (2 * k) s = some t ∧ t.now = s.now + k * (on + off) ∧ InPhaseSinceNow n c on off b true t := by
  induction k generalizing s with
  | zero => exact ⟨s, rfl, by omega, h⟩
  | succ k ih =>
    have hsum := Nat.add_one_mul k (on + off)
    obtain ⟨u, hfirst, hu, hphase⟩ := h.period (by omega)
    obtain ⟨t, hrest, ht, hlast⟩ := ih hphase (by omega)
    have hcount : 2 * (k + 1) = 2 + 2 * k := by omega
    refine ⟨t, ?_, by omega, hlast⟩
    rw [hcount, dutyToggles_add, hfirst, Option.bind_some, hrest]

/-- Settles O33: the channel is HIGH since `now`, and so it is again after `k` periods. -/
theorem dutyPeriodsDoNotDrift : Obligations.DutyPeriodsDoNotDrift := by
  unfold Obligations.DutyPeriodsDoNotDrift
  intro s n on off k hp ht hf hslot hothers
  have hch : s.dutyCh n = { s.dutyCh n with phase := true } := by rw [← hp]
  have hstart : InPhaseSinceNow n (s.dutyCh n) on off (s.now + k * (on + off)) true s := ⟨hch, ht, hf, hslot, hothers⟩
  obtain ⟨t, htoggles, hnow, hend⟩ := hstart.periods k le_rfl
  exact ⟨t, htoggles, hnow, hend.ch.trans hch.symm, hnow ▸ hend.slot⟩

end Sys2Proof.Machine
end

section
/-! PROOF. The operations of the compare engine: its timer and mode writes (45_multi_timer_compare.md R243, R244), its
compare writes (R246, R250, R251), the callback of an output (R248) and the words (R249). -/

namespace Sys2Proof.Machine

open Sys2Proof.Safety

/-! One output channel and its slot. -/

theorem State.oneOut_setMcmpOut (s : State) (o : OpIx) (k : OutIx) (c : OutCh) :
    OneOut s.mcmp.out (s.setMcmpOut o k c).mcmp.out o k c :=
  ⟨(s.mcmpOut_setMcmpOut o o k k c).trans (if_pos ⟨rfl, rfl⟩),
    fun o' k' h => (s.mcmpOut_setMcmpOut o o' k k' c).trans (if_neg fun e => h (Prod.ext e.1 e.2))⟩

/-! Compare writes. -/

/-- The write of compare x of operator o. -/
def compareWrite (o : OpIx) (x : Cmp) (v : Word) : Instr :=
  match x with
  | .a => .wMcmpOpCmpa o v
  | .b => .wMcmpOpCmpb o v

theorem decode_compareWrite (o : OpIx) (x : Cmp) (v : Word) :
    decode (.busWrite .mcmp ((if x = .a then 0x044 else 0x048) + 0x10 * o.val) 32 v) = .ok (compareWrite o x v) := by
  cases x with
  | a => exact decode_of_encode_eq (i := .wMcmpOpCmpa o v) rfl rfl
  | b => exact decode_of_encode_eq (i := .wMcmpOpCmpb o v) rfl rfl

/-- R250, R251: the operator with compare x stored. -/
def Oper.setCmp (op : Oper) (x : Cmp) (c : BitVec 16) : Oper :=
  match x with
  | .a => { op with cmpa := c }
  | .b => { op with cmpb := c }

@[simp] theorem Oper.cmp_setCmp (op : Oper) (x : Cmp) (c : BitVec 16) : (op.setCmp x c).cmp x = c := by
  cases x <;> rfl

/-- R250, R251: only a non-zero, changed value arms the mapped output. -/
theorem exec_compareWrite (s : State) (o : OpIx) (x : Cmp) (v : Word) :
    exec (compareWrite o x v) s = .next (
      if BitVec.ofNat 16 v.toNat ≠ 0 ∧ BitVec.ofNat 16 v.toNat ≠ (s.mcmpOp o).cmp x
      then (s.setMcmpOp o ((s.mcmpOp o).setCmp x (BitVec.ofNat 16 v.toNat))).mcmpArm o ((s.mcmpOp o).outOf x) x
      else s.setMcmpOp o ((s.mcmpOp o).setCmp x (BitVec.ofNat 16 v.toNat))) := by
  rw [← fieldOf_zero_eq_ofNat]
  cases x <;> rfl

/-- R242: the times under a compare value that was just stored. -/
theorem State.mcmpTimes_setCmp (s : State) (o : OpIx) (x : Cmp) (c : BitVec 16) :
    (s.setMcmpOp o ((s.mcmpOp o).setCmp x c)).mcmpTimes o x =
      toggleTimes s.params.mcmpClkHz (s.mcmp.tmr.get o).presc.toNat (s.mcmp.tmr.get o).period.toNat c.toNat := by
  rw [State.mcmpTimes, State.mcmpOp_setMcmpOp, if_pos rfl, Oper.cmp_setCmp]
  rfl

/-- Settles O35: after the value is stored the mapped output is left alone, goes INERT or is armed. -/
theorem compareWriteArmsTheMappedOutput : Obligations.CompareWriteArmsTheMappedOutput := by
  unfold Obligations.CompareWriteArmsTheMappedOutput
  intro s o x v i old new op' k ps pc period sig
  refine ⟨decode_compareWrite o x v, ?_⟩
  have hexec : exec i s = .next (if new ≠ 0 ∧ new ≠ old then (s.setMcmpOp o op').mcmpArm o k x else s.setMcmpOp o op') :=
    exec_compareWrite s o x v
  have hstored : OneElem s.mcmp.op (s.setMcmpOp o op').mcmp.op o op' := vector_set_oneElem _ o _
  rw [hexec]
  by_cases hidle : new = 0 ∨ new = old
  · rw [if_neg fun h => not_or.mpr h hidle]
    refine ⟨(s.setMcmpOp o op').mcmp, s.sched, [], ?_, rfl, hstored, ?_⟩
    · rw [List.append_nil]
      rfl
    · rw [if_pos hidle]
      exact ⟨rfl, rfl, rfl⟩
  · have htimes : (s.setMcmpOp o op').mcmpTimes o x = toggleTimes s.params.mcmpClkHz ps pc new.toNat :=
      s.mcmpTimes_setCmp o x new
    have hout : ∀ c, OneOut s.mcmp.out ((s.setMcmpOp o op').setMcmpOut o k c).mcmp.out o k c :=
      (s.setMcmpOp o op').oneOut_setMcmpOut o k
    rw [if_pos (not_or.mp hidle), State.mcmpArm_eq, htimes]
    cases ht : toggleTimes s.params.mcmpClkHz ps pc new.toNat with
    | none =>
      refine ⟨_, _, _, rfl, rfl, hstored, ?_⟩
      rw [if_neg hidle, if_pos ((toggleTimes_none_iff _ _ _ _).mp ht)]
      exact ⟨hout _, Sched.set_oneSlot _ _ _, rfl⟩
    | some p =>
      obtain ⟨on, off⟩ := p
      have hrunnable : ¬ (s.params.mcmpClkHz = 0 ∨ ps = 0 ∨ pc = 0 ∨ period < 2) := fun h =>
        nomatch ht.symm.trans ((toggleTimes_none_iff _ _ _ _).mpr h)
      obtain ⟨-, -, -, -, -, -, -, hon⟩ := toggleTimes_spec ht
      refine ⟨_, _, _, rfl, rfl, hstored, ?_⟩
      rw [if_neg hidle, if_neg hrunnable, ← hon]
      exact ⟨hout _, Sched.set_oneSlot _ _ _, rfl⟩

/-! The callback. -/

/-- 47_virtual_clock.md R303. -/
theorem exec_fireMcmp_of_due {s : State} {o : OpIx} {k : OutIx} (h : s.sched.get (.mcmp o k) = some s.now) :
    exec (.fireMcmp o k) s = .next (s.mcmpFire o k) := if_pos ((s.due_iff _).mpr h)

/-- Settles O36: the callback writes the toggled output and its slot. -/
theorem compareFireTogglesAndReArms : Obligations.CompareFireTogglesAndReArms := by
  unfold Obligations.CompareFireTogglesAndReArms
  intro s o k hdue c0 ph sig
  have hsrc : c0.src = (s.mcmpOut o k).src := rfl
  rw [exec_fireMcmp_of_due hdue, State.mcmpFire_eq, hsrc]
  cases s.mcmpTimes o (s.mcmpOut o k).src with
  | none => exact ⟨_, _, _, rfl, rfl, rfl, s.oneOut_setMcmpOut o k _, Sched.set_oneSlot _ _ _, rfl⟩
  | some p => exact ⟨_, _, _, rfl, rfl, rfl, s.oneOut_setMcmpOut o k _, Sched.set_oneSlot _ _ _, rfl⟩

/-! Timer and mode writes. -/

/-- 30_encoding.md R102: the stored fields, in naturals. -/
theorem tmrOf_eq (v : Word) : tmrOf v = ⟨BitVec.ofNat 8 v.toNat, BitVec.ofNat 16 (v.toNat / 2 ^ 8)⟩ := by
  rw [tmrOf, fieldOf_zero_eq_ofNat, fieldOf_eq_ofNat]

/-- Settles O34: each write replaces one entry of its table. -/
theorem timerAndModeWritesStoreOnly : Obligations.TimerAndModeWritesStoreOnly := by
  unfold Obligations.TimerAndModeWritesStoreOnly
  refine ⟨fun s i v => ⟨decode_of_encode_eq (i := .wMcmpTmrCfg i v) rfl rfl, _, rfl, ?_⟩,
    fun s o v => ⟨decode_of_encode_eq (i := .wMcmpOpMode o v) rfl rfl, _, rfl, ?_⟩⟩
  · rw [← tmrOf_eq]
    exact vector_set_oneElem s.mcmp.tmr i (tmrOf v)
  · exact vector_set_oneElem s.mcmp.op o _

/-! Words. -/

/-- 30_encoding.md R102: the word as the sum of its scaled fields. -/
theorem tmrWord_toNat (t : Tmr) : (tmrWord t).toNat = t.presc.toNat + 2 ^ 8 * t.period.toNat := by
  rw [tmrWord, append_toNat_add, zero_append_toNat]
  omega

/-- R102: the word as the sum of its scaled bits. -/
theorem modeWord_toNat (op : Oper) : (modeWord op).toNat = op.aSwap.toNat + 2 * op.bSwap.toNat := by
  rw [modeWord, append_toNat_add, zero_append_toNat, BitVec.toNat_ofBool, BitVec.toNat_ofBool]
  omega

/-- R102. -/
theorem cmpWord_toNat (c : BitVec 16) : (cmpWord c).toNat = c.toNat := zero_append_toNat c

/-- Settles O37: each read answers the word of its fields. -/
theorem compareWordsRead : Obligations.CompareWordsRead := by
  unfold Obligations.CompareWordsRead
  intro s o
  exact ⟨⟨_, rfl, tmrWord_toNat _⟩, ⟨_, rfl, modeWord_toNat _⟩, ⟨_, rfl, cmpWord_toNat _⟩, ⟨_, rfl, cmpWord_toNat _⟩⟩

end Sys2Proof.Machine
end

section
/-! PROOF. The operations of the streaming engine: its configuration write (46_stream_waveform.md R278, R279, R285), its
callback (R280, R288), the resume after a clear (R287), and the ring writes and the words (R286, R289). -/

namespace Sys2Proof.Machine

open Sys2Proof.Safety

/-! The callback. -/

/-- 47_virtual_clock.md R303. -/
theorem exec_fireStrm_of_due {s : State} {n : StrmIx} (h : s.sched.get (.strm n) = some s.now) :
    exec (.fireStrm n) s = .next ((s.cancel (.strm n)).drain n) := if_pos ((s.due_iff _).mpr h)

/-- Settles O39: the callback is a drain after its own slot was emptied. -/
theorem streamFireRunsOneTick : Obligations.StreamFireRunsOneTick := by
  unfold Obligations.StreamFireRunsOneTick
  intro s n hdue
  exact ⟨_, _, s.sched.set_oneSlot _ _, exec_fireStrm_of_due hdue, (s.cancel (.strm n)).drain_drained n⟩

/-! The configuration write. -/

/-- 30_encoding.md R101: the stored fields, in naturals. -/
theorem setStrmConf_eq (c : StrmCh) (v : Word) : setStrmConf c v =
    { c with
      div := BitVec.ofNat 8 v.toNat, burst := BitVec.ofNat 8 (v.toNat / 2 ^ 8), en := v.getLsbD 31 } := by
  rw [setStrmConf, fieldOf_zero_eq_ofNat, fieldOf_eq_ofNat]

/-- Of the stored channel only the emptied slot is left once channel n is written again. -/
theorem State.setStrmCh_strmStored (s : State) (n : StrmIx) (v : Word) (c : StrmCh) :
    (s.strmStored n v).setStrmCh n c = (s.setStrmCh n c).withSched (s.sched.set (.strm n) none) := by
  rw [State.strmStored_eq]
  show ((s.setStrmCh n _).setStrmCh n c).withSched (s.sched.set (.strm n) none) = _
  rw [State.setStrmCh_setStrmCh]

/-- R279: a start of a runnable configuration runs the first tick inside. -/
theorem State.strmStart_of_runnable {s : State} {n : StrmIx} {c : StrmCh} (hc : s.strmCh n = c)
    (h : Runnable s.params c) :
    s.strmStart n = (s.setStrmCh n { c with cursor := 0, sent := 0, pending := false, running := true }).drain n := by
  subst hc
  exact if_pos ((runnable_iff _ _).mpr h)

/-- R279: a start of any other configuration leaves the channel stopped at the first word. -/
theorem State.strmStart_of_not_runnable {s : State} {n : StrmIx} {c : StrmCh} (hc : s.strmCh n = c)
    (h : ¬ Runnable s.params c) :
    s.strmStart n = s.setStrmCh n { c with cursor := 0, sent := 0, pending := false, running := false } := by
  subst hc
  exact if_neg (mt (runnable_iff _ _).mp h)

/-- R285: with `EN` 1 the stored configuration is started. -/
theorem exec_wStrmChConf_of_en (n : StrmIx) {v : Word} (hv : v.getLsbD 31 = true) (s : State) :
    exec (.wStrmChConf n v) s = .next ((s.strmStored n v).strmStart n) := by
  have hen : ((s.strmStored n v).strmCh n).en = true := by rw [s.strmStored_ch]; exact hv
  rw [exec_wStrmChConf, if_pos hen]

/-- Settles O38: the write only stores, stores and starts a configuration that cannot run, or runs the first tick. -/
theorem streamConfWriteRestartsTheChannel : Obligations.StreamConfWriteRestartsTheChannel := by
  unfold Obligations.StreamConfWriteRestartsTheChannel
  intro s n v
  refine ⟨decode_of_encode_eq (i := .wStrmChConf n v) rfl rfl, ?_⟩
  intro c
  have hch : (s.strmStored n v).strmCh n = c := by rw [s.strmStored_ch, setStrmConf_eq]
  have hparams : (s.strmStored n v).params = s.params := rfl
  have hslot : OneSlot s.sched (s.sched.set (.strm n) none) (.strm n) none := Sched.set_oneSlot _ _ _
  cases hv : v.getLsbD 31 with
  | false =>
    refine ⟨(s.setStrmCh n c).strm, _, _, exec_wStrmChConf_of_not_en n hv s, rfl, hslot,
      fun _ => ⟨s.setStrmCh_oneElem n c, ?_⟩, nofun, nofun⟩
    rw [s.strmStored_eq, setStrmConf_eq]
    rfl
  | true =>
    by_cases hrun : Runnable s.params c
    · have hstart := State.strmStart_of_runnable hch (hparams ▸ hrun)
      rw [State.setStrmCh_strmStored] at hstart
      refine ⟨(s.setStrmCh n { c with cursor := 0, sent := 0, running := true }).strm, _, _,
        exec_wStrmChConf_of_en n hv s, rfl, hslot, nofun, fun _ h => absurd hrun h,
        fun _ _ => ⟨s.setStrmCh_oneElem n _, ?_⟩⟩
      rw [hstart]
      exact State.drain_drained _ n
    · have hstart := State.strmStart_of_not_runnable hch (hparams ▸ hrun)
      rw [State.setStrmCh_strmStored] at hstart
      exact ⟨(s.setStrmCh n { c with cursor := 0, sent := 0 }).strm, _, _, exec_wStrmChConf_of_en n hv s, rfl, hslot,
        nofun, fun _ _ => ⟨s.setStrmCh_oneElem n _, hstart⟩, fun _ h => absurd h hrun⟩

/-! The resume after a clear. -/

/-- R287: the resume of the model is the resume of the rule. -/
theorem State.strmResume_resumed (s : State) (n : StrmIx) : Resumed n s (s.strmResume n) := by
  unfold Resumed State.strmResume
  by_cases howed : (s.strmCh n).running = true ∧ (s.strmCh n).pending = true
  · rw [if_pos howed]
    by_cases hblk : Blocked s n
    · rw [if_neg fun ⟨_, _, hfree⟩ => hfree ((s.strmBlocked_iff n).mpr hblk)]
      exact .inl ⟨hblk, rfl⟩
    · rw [if_pos ⟨howed.1, howed.2, mt (s.strmBlocked_iff n).mp hblk⟩]
      exact .inr ⟨hblk, (s.setStrmCh n { s.strmCh n with pending := false }).strm, rfl, s.setStrmCh_oneElem n _,
        (s.setStrmCh n _).drain_drained n⟩
  · rw [if_neg howed, if_neg fun ⟨hr, hp, _⟩ => howed ⟨hr, hp⟩]

/-- 30_encoding.md R101: a written latch word carries the implemented bits. -/
theorem strmLatchOf_getLsbD_eq (v : Word) {b : Nat} (hb : b < 16) :
    (strmLatchOf v).getLsbD b = (decide (b ≤ 3 ∨ (8 ≤ b ∧ b ≤ 11)) && v.getLsbD b) := by
  rw [strmLatchOf, BitVec.getLsbD_and, fieldOf_getLsbD, decide_eq_true hb, Bool.true_and, Nat.zero_add,
    strmLatchMask_getLsbD ⟨b, hb⟩, Bool.and_comm]

/-- Settles O40: the acknowledgement, and then the resumes of the four channels one after another. -/
theorem streamClearResumesDeferredEmissions : Obligations.StreamClearResumesDeferredEmissions := by
  unfold Obligations.StreamClearResumesDeferredEmissions
  intro s v
  refine ⟨decode_of_encode_eq (i := .wStrmIntClear v) rfl rfl, (s.strmCleared v).strm, _, _, _, _,
    exec_wStrmIntClear v s, rfl, rfl, fun b hb => ?_, State.strmResume_resumed _ 0, State.strmResume_resumed _ 1,
    State.strmResume_resumed _ 2, State.strmResume_resumed _ 3⟩
  rw [State.strmCleared_raw, strmLatchOf_getLsbD_eq v hb]

/-! Ring writes and words. -/

/-- 30_encoding.md R101: the word as the sum of its scaled fields. -/
theorem strmConfWord_toNat (c : StrmCh) :
    (strmConfWord c).toNat = c.div.toNat + 2 ^ 8 * c.burst.toNat + 2 ^ 31 * c.en.toNat := by
  rw [strmConfWord, append_toNat_add, append_toNat_add, append_toNat_add, BitVec.toNat_ofBool, BitVec.toNat_ofNat]
  omega

/-- Settles O41: a ring write replaces one word of one channel's ring, and the reads answer the stored fields. -/
theorem ringWritesAndStreamReads : Obligations.RingWritesAndStreamReads := by
  unfold Obligations.RingWritesAndStreamReads
  intro s n i v
  exact ⟨decode_of_encode_eq (i := .wStrmRam n i v) rfl rfl,
    ⟨_, _, rfl, vector_set_oneElem (s.strmCh n).ring i v, s.setStrmCh_oneElem n _⟩,
    ⟨_, rfl, strmConfWord_toNat _⟩, rfl⟩

end Sys2Proof.Machine
end

section
/-! PROOF. What a blocked stream channel emits (46_stream_waveform.md R281, R291 (a)): nothing, whatever operation runs but an
`INT_CLEAR` write. -/

namespace Sys2Proof.Machine

open Sys2Proof.Safety

/-! Events that are no output of channel n. -/

/-- R291 (a): from `s` to `t` events were appended, and none of them is an output of stream channel n. -/
def NoOutputOf (n : StrmIx) (s t : State) : Prop := ∃ es, t.trace = s.trace ++ es ∧ ∀ e, e ∈ es → isOutputOf n e = false

theorem noOutputOf_of_trace_eq {n : StrmIx} {s t : State} (h : t.trace = s.trace) : NoOutputOf n s t :=
  ⟨[], by rw [h, List.append_nil], nofun⟩

/-- 43_gpio_crossbar.md R190: an announcement drives pins only. -/
theorem isOutputOf_of_mem_forwards {n : StrmIx} {s : State} {sig : Nat} {level : Bool} {q : Option Word} {e : Event}
    (he : e ∈ forwards s sig level q) : isOutputOf n e = false := by
  obtain ⟨p, -, rfl⟩ := List.mem_map.mp he
  rfl

theorem isOutputOf_of_mem_phaseEvents {n : StrmIx} {s : State} {sig : Nat} {old new : Bool} {e : Event}
    (he : e ∈ phaseEvents s sig old new) : isOutputOf n e = false := by
  unfold phaseEvents at he
  split_ifs at he
  · cases he
  · exact isOutputOf_of_mem_forwards he

/-- R282 to R284: the words of another channel are no output of channel n. -/
theorem isOutputOf_of_mem_wordEvents {m n : StrmIx} (hne : m ≠ n) {s : State} {k : Nat} {e : Event}
    (he : e ∈ wordEvents s m k) : isOutputOf n e = false := by
  obtain ⟨j, -, rfl⟩ := List.mem_map.mp he
  unfold wordEvent
  split_ifs
  · exact decide_eq_false hne
  · exact decide_eq_false hne

/-! The two toggling engines. -/

theorem State.noOutputOf_announce (n : StrmIx) (s : State) (sig : Nat) (level : Bool) (q : Option Word) :
    NoOutputOf n s (s.announce sig level q) := by
  rw [State.announce_eq]
  exact ⟨_, rfl, fun _ => isOutputOf_of_mem_forwards⟩

theorem State.noOutputOf_dutyStart (n : StrmIx) (s : State) (m : DutyIx) : NoOutputOf n s (s.dutyStart m) := by
  rw [State.dutyStart_eq]
  cases dutyTimes s.params (s.dutyCh m) with
  | none => exact ⟨_, rfl, fun _ => isOutputOf_of_mem_phaseEvents⟩
  | some p => exact ⟨_, rfl, fun _ => isOutputOf_of_mem_phaseEvents⟩

theorem State.noOutputOf_dutyStop (n : StrmIx) (s : State) (m : DutyIx) : NoOutputOf n s (s.dutyStop m) := by
  rw [State.dutyStop_eq]
  exact ⟨_, rfl, fun _ => isOutputOf_of_mem_phaseEvents⟩

/-- 44_duty_timer.md R214, 45_multi_timer_compare.md R248: the events of a callback that ends INERT. -/
theorem isOutputOf_of_mem_toggle {n : StrmIx} {s : State} {sig : Nat} {ph : Bool} {e : Event}
    (he : e ∈ forwards s sig ph none ++ phaseEvents s sig ph false) : isOutputOf n e = false :=
  (List.mem_append.mp he).elim isOutputOf_of_mem_forwards isOutputOf_of_mem_phaseEvents

theorem State.noOutputOf_dutyFire (n : StrmIx) (s : State) (m : DutyIx) : NoOutputOf n s (s.dutyFire m) := by
  rw [State.dutyFire_eq]
  cases dutyTimes s.params (toggledCh (s.dutyCh m)) with
  | none => exact ⟨_, rfl, fun _ => isOutputOf_of_mem_toggle⟩
  | some p => exact ⟨_, rfl, fun _ => isOutputOf_of_mem_forwards⟩

theorem State.noOutputOf_mcmpArm (n : StrmIx) (s : State) (o : OpIx) (k : OutIx) (x : Cmp) :
    NoOutputOf n s (s.mcmpArm o k x) := by
  rw [State.mcmpArm_eq]
  cases s.mcmpTimes o x with
  | none => exact ⟨_, rfl, fun _ => isOutputOf_of_mem_phaseEvents⟩
  | some p => exact ⟨_, rfl, fun _ => isOutputOf_of_mem_phaseEvents⟩

theorem State.noOutputOf_mcmpFire (n : StrmIx) (s : State) (o : OpIx) (k : OutIx) : NoOutputOf n s (s.mcmpFire o k) := by
  rw [State.mcmpFire_eq]
  cases s.mcmpTimes o (s.mcmpOut o k).src with
  | none => exact ⟨_, rfl, fun _ => isOutputOf_of_mem_toggle⟩
  | some p => exact ⟨_, rfl, fun _ => isOutputOf_of_mem_forwards⟩

theorem noOutputOf_of_reach_duty {n : StrmIx} {i : Instr} {m : DutyIx} {s t : State} (h : reach i = .duty m)
    (he : exec i s = .next t) : NoOutputOf n s t := by
  match i, h with
  | .wDutyChConf m v, _ =>
    cases he
    split_ifs
    · exact State.noOutputOf_dutyStart n (s.setDutyCh m _) m
    · exact State.noOutputOf_dutyStop n (s.setDutyCh m _) m
  | .wDutyChDuty m v, _ =>
    cases he
    split_ifs
    · exact State.noOutputOf_dutyStart n (s.setDutyCh m _) m
    · exact noOutputOf_of_trace_eq rfl
  | .wDutyChFade m v, _ => cases he; exact noOutputOf_of_trace_eq rfl
  | .fireDuty m, _ =>
    obtain ⟨-, rfl⟩ := exec_fireDuty_next he
    exact s.noOutputOf_dutyFire n m

theorem noOutputOf_compareWrite {n : StrmIx} {o : OpIx} {x : Cmp} {v : Word} {s t : State}
    (he : exec (compareWrite o x v) s = .next t) : NoOutputOf n s t := by
  cases (exec_compareWrite s o x v).symm.trans he
  split_ifs
  · exact State.noOutputOf_mcmpArm n (s.setMcmpOp o _) o _ x
  · exact noOutputOf_of_trace_eq rfl

theorem noOutputOf_of_reach_mcmp {n : StrmIx} {i : Instr} {s t : State} (h : reach i = .mcmp)
    (he : exec i s = .next t) : NoOutputOf n s t := by
  match i, h with
  | .wMcmpTmrCfg m v, _ => cases he; exact noOutputOf_of_trace_eq rfl
  | .wMcmpOpMode o v, _ => cases he; exact noOutputOf_of_trace_eq rfl
  | .wMcmpOpCmpa o v, _ => exact noOutputOf_compareWrite (x := .a) he
  | .wMcmpOpCmpb o v, _ => exact noOutputOf_compareWrite (x := .b) he
  | .fireMcmp o k, _ =>
    obtain ⟨-, rfl⟩ := exec_fireMcmp_next he
    exact s.noOutputOf_mcmpFire n o k

theorem noOutputOf_of_reach_nothing {n : StrmIx} {i : Instr} {s t : State} (h : reach i = .nothing)
    (he : exec i s = .next t) : NoOutputOf n s t := by
  rcases cases_of_reach_nothing h with hr | hd | ⟨sig, level, param, rfl⟩
  · obtain ⟨w, hw⟩ := exec_of_isRead hr s
    cases hw.symm.trans he
    exact noOutputOf_of_trace_eq rfl
  · cases (exec_of_isDroppedWrite hd s).symm.trans he
    exact noOutputOf_of_trace_eq rfl
  · cases he
    exact s.noOutputOf_announce n sig.val level param

/-! The streaming engine. -/

/-- R280, R281: a tick of channel m puts out words of channel m only, and none of a blocked channel. -/
theorem noOutputOf_of_drained {m n : StrmIx} {s t : State} (hd : Drained m s t) (hblk : Blocked s n) :
    NoOutputOf n s t := by
  have hother : ¬ Blocked s m → m ≠ n := fun hm e => hm (e ▸ hblk)
  rcases hd with ⟨_, rfl⟩ | ⟨_, _, q, rfl, _⟩ | ⟨_, hm, j, _, _, _, q, rfl, _⟩ | ⟨_, hm, _, q, x, rfl, _⟩
  · exact noOutputOf_of_trace_eq rfl
  · exact noOutputOf_of_trace_eq rfl
  · exact ⟨_, rfl, fun _ => isOutputOf_of_mem_wordEvents (hother hm)⟩
  · exact ⟨_, rfl, fun _ => isOutputOf_of_mem_wordEvents (hother hm)⟩

/-- R279: the tick inside a start. -/
theorem State.noOutputOf_strmStart {n : StrmIx} {s : State} (hblk : Blocked s n) (m : StrmIx) :
    NoOutputOf n s (s.strmStart m) := by
  unfold State.strmStart
  dsimp only
  split_ifs
  · exact noOutputOf_of_drained (s := s.setStrmCh m _) (State.drain_drained _ m) hblk
  · exact noOutputOf_of_trace_eq rfl

/-- R291 (a), for the operations of the engine itself: none but an `INT_CLEAR` write lowers a bit before its tick. -/
theorem noOutputOf_of_reach_strm {n : StrmIx} {i : Instr} {s t : State} (h : reach i = .strm)
    (he : exec i s = .next t) (hblk : Blocked s n) (hclear : ∀ v, i ≠ .wStrmIntClear v) : NoOutputOf n s t := by
  match i, h with
  | .wStrmChConf m v, _ =>
    rw [exec_wStrmChConf] at he
    cases he
    split_ifs
    · exact State.noOutputOf_strmStart (s := s.strmStored m v) hblk m
    · exact noOutputOf_of_trace_eq rfl
  | .wStrmIntEnable v, _ => cases he; exact noOutputOf_of_trace_eq rfl
  | .wStrmIntClear v, _ => exact absurd rfl (hclear v)
  | .wStrmRam m j v, _ => cases he; exact noOutputOf_of_trace_eq rfl
  | .fireStrm m, _ =>
    obtain ⟨-, rfl⟩ := exec_fireStrm_next he
    exact noOutputOf_of_drained (s := s.cancel (.strm m)) (State.drain_drained _ m) hblk

/-! The statement. -/

/-- Settles O42, by what the operation reaches: outside the streaming engine events drive pins only, and inside it a blocked
channel's tick is deferred. -/
theorem blockedChannelsEmitNothing : Obligations.BlockedChannelsEmitNothing := by
  unfold Obligations.BlockedChannelsEmitNothing
  intro i s t n he hblk hclear
  show NoOutputOf n s t
  cases hr : reach i with
  | gpio =>
    obtain ⟨g, hg⟩ := exec_of_reach_gpio hr s
    cases hg.symm.trans he
    exact noOutputOf_of_trace_eq rfl
  | duty m => exact noOutputOf_of_reach_duty hr he
  | dutyLatch =>
    obtain ⟨l, hl⟩ := exec_of_reach_dutyLatch hr s
    cases hl.symm.trans he
    exact noOutputOf_of_trace_eq rfl
  | mcmp => exact noOutputOf_of_reach_mcmp hr he
  | strm => exact noOutputOf_of_reach_strm hr he hblk hclear
  | clock =>
    obtain ⟨u, rfl⟩ := eq_advance_of_reach_clock hr
    obtain ⟨-, rfl⟩ := exec_advance_next he
    exact noOutputOf_of_trace_eq rfl
  | nothing => exact noOutputOf_of_reach_nothing hr he
  | everything =>
    cases eq_reset_of_reach_everything hr
    cases he
    exact noOutputOf_of_trace_eq rfl

end Sys2Proof.Machine
end

section
/-! PROOF. The clock operations: `ADVANCE` and `FIRE` run exactly when they are enabled (47_virtual_clock.md R302, R303), no
operation raises a fault (60_exceptions.md R320), and what an operation arms is armed strictly later than `now` (R304). -/

namespace Sys2Proof.Machine

open Sys2Proof.Safety

/-! Enabling. -/

/-- Settles O44: `ADVANCE` is guarded by its enabling condition. -/
theorem advanceNeverPassesADeadline : Obligations.AdvanceNeverPassesADeadline := by
  unfold Obligations.AdvanceNeverPassesADeadline
  refine fun s t => ⟨fun h => if_pos ((s.advanceEnabled_iff t).mpr h), fun h u he => ?_⟩
  obtain ⟨henabled, -⟩ := exec_advance_next he
  exact h henabled

/-- 47_virtual_clock.md R303: the callback of a token. -/
def State.fire (s : State) (tok : Token) : State :=
  match tok with
  | .duty n => s.dutyFire n
  | .mcmp o k => s.mcmpFire o k
  | .strm n => (s.cancel (.strm n)).drain n

/-- 47_virtual_clock.md R303: `FIRE` runs the callback of a token that is due, and has no transition otherwise. -/
theorem exec_fireOp (tok : Token) (s : State) :
    exec tok.fireOp s = if s.due tok then .next (s.fire tok) else .refused .fireNotEnabled := by
  cases tok <;> rfl

theorem exec_fireOp_of_due {s : State} {tok : Token} (h : s.sched.get tok = some s.now) :
    exec tok.fireOp s = .next (s.fire tok) := by
  rw [exec_fireOp, if_pos ((s.due_iff tok).mpr h)]

/-- 47_virtual_clock.md R302, R303: an operation with an enabling condition completes or is refused. -/
theorem guarded_ne_fault (p : Bool) (u : State) (r : Refusal) (f : Fault) :
    (if p then .next u else .refused r : Result) ≠ .fault f := by
  split_ifs <;> nofun

/-- 60_exceptions.md R320: an operation without an enabling condition completes, and one with it completes or is refused. -/
theorem exec_ne_fault (i : Instr) (s : State) (f : Fault) : exec i s ≠ .fault f := by
  by_cases hadvance : ∃ t, i = .advance t
  · obtain ⟨t, rfl⟩ := hadvance
    exact guarded_ne_fault (s.advanceEnabled t) _ _ f
  by_cases hfire : ∃ tok : Token, i = tok.fireOp
  · obtain ⟨tok, rfl⟩ := hfire
    rw [exec_fireOp]
    exact guarded_ne_fault (s.due tok) _ _ f
  · obtain ⟨t, he, -⟩ := everyEnabledOperationCompletes i s
      ⟨fun t h => absurd ⟨t, h⟩ hadvance, fun tok h => absurd ⟨tok, h⟩ hfire⟩
    rw [he]
    nofun

/-- Settles O52: a step changes nothing, is refused, or runs an operation. -/
theorem noOperationRaisesAFault : Obligations.NoOperationRaisesAFault := by
  unfold Obligations.NoOperationRaisesAFault
  refine fun s f => ⟨?_, fun i => exec_ne_fault i s f⟩
  cases hs : s.inbox with
  | nil => rw [step_of_inbox_nil hs]; nofun
  | cons r rest =>
    cases hr : decode r with
    | error e => rw [step_of_decode_error hs hr]; nofun
    | ok i => rw [step_of_decode_ok hs hr]; exact exec_ne_fault i _ f

/-! Deadlines. -/

/-- 47_virtual_clock.md R304: a new slot is empty or holds a deadline strictly later than `now`. -/
def SlotLater (now : Nat) (d : Option Nat) : Prop := d = none ∨ ∃ x, d = some x ∧ now < x

/-- R304: no time passed from `s` to `t`, and every slot that changed was emptied or armed strictly later than `now`. -/
structure RenewsSlots (s t : State) : Prop where
  now : t.now = s.now
  slot : ∀ tok, t.sched.get tok = s.sched.get tok ∨ SlotLater t.now (t.sched.get tok)

theorem slotLater_none (now : Nat) : SlotLater now none := .inl rfl

theorem slotLater_now_add {now d : Nat} (h : 0 < d) : SlotLater now (some (now + d)) :=
  .inr ⟨_, rfl, Nat.lt_add_of_pos_right h⟩

theorem renewsSlots_of_sched_eq {s t : State} (hnow : t.now = s.now) (hsched : t.sched = s.sched) : RenewsSlots s t :=
  ⟨hnow, fun tok => .inl (by rw [hsched])⟩

theorem RenewsSlots.trans {s t u : State} (h : RenewsSlots s t) (k : RenewsSlots t u) : RenewsSlots s u where
  now := k.now.trans h.now
  slot tok := by
    rcases k.slot tok with hsame | hlater
    · rw [hsame, k.now]
      exact h.slot tok
    · exact .inr hlater

/-- Writing one slot. -/
theorem renewsSlots_of_oneSlot {s t : State} {tok : Token} {d : Option Nat} (hnow : t.now = s.now)
    (hsched : OneSlot s.sched t.sched tok d) (hd : SlotLater s.now d) : RenewsSlots s t where
  now := hnow
  slot tok' := by
    obtain ⟨hslot, hothers⟩ := hsched
    by_cases h : tok' = tok
    · rw [h, hslot, hnow]
      exact .inr hd
    · exact .inl (hothers tok' h)

/-! The toggling engines. -/

/-- 44_duty_timer.md R207: both phases of a channel that is not inert last at least `EPS`. -/
theorem toggleTimes_pos {clk div maxc d on off : Nat} (h : toggleTimes clk div maxc d = some (on, off)) (phase : Bool) :
    0 < if phase then on else off := by
  obtain ⟨-, -, -, -, -, hon, hoff, -⟩ := toggleTimes_spec h
  split_ifs <;> assumption

theorem State.renewsSlots_dutyPut (s : State) (l : Latch 8) (n : DutyIx) (c : DutyCh) {d : Option Nat} (es : List Event)
    (hd : SlotLater s.now d) : RenewsSlots s ((s.withDuty { s.duty with latch := l }).dutyPut n c d es) :=
  renewsSlots_of_oneSlot rfl (s.sched.set_oneSlot (.duty n) d) hd

/-- 44_duty_timer.md R212. -/
theorem State.renewsSlots_dutyStart (s : State) (n : DutyIx) : RenewsSlots s (s.dutyStart n) := by
  rw [State.dutyStart_eq]
  cases ht : dutyTimes s.params (s.dutyCh n) with
  | none => exact s.renewsSlots_dutyPut s.duty.latch n _ _ (slotLater_none _)
  | some p => exact s.renewsSlots_dutyPut s.duty.latch n _ _ (slotLater_now_add (toggleTimes_pos ht true))

/-- 44_duty_timer.md R213. -/
theorem State.renewsSlots_dutyStop (s : State) (n : DutyIx) : RenewsSlots s (s.dutyStop n) := by
  rw [State.dutyStop_eq]
  exact s.renewsSlots_dutyPut s.duty.latch n _ _ (slotLater_none _)

/-- 44_duty_timer.md R214. -/
theorem State.renewsSlots_dutyFire (s : State) (n : DutyIx) : RenewsSlots s (s.dutyFire n) := by
  rw [State.dutyFire_eq]
  cases ht : dutyTimes s.params (toggledCh (s.dutyCh n)) with
  | none => exact s.renewsSlots_dutyPut _ n _ _ (slotLater_none _)
  | some p => exact s.renewsSlots_dutyPut _ n _ _ (slotLater_now_add (toggleTimes_pos ht _))

theorem renewsSlots_of_reach_duty {i : Instr} {n : DutyIx} {s t : State} (h : reach i = .duty n)
    (he : exec i s = .next t) : RenewsSlots s t := by
  have hset : ∀ m c, RenewsSlots s (s.setDutyCh m c) := fun _ _ => renewsSlots_of_sched_eq rfl rfl
  match i, h with
  | .wDutyChConf m v, _ =>
    cases he
    split_ifs
    · exact (hset m _).trans (State.renewsSlots_dutyStart _ m)
    · exact (hset m _).trans (State.renewsSlots_dutyStop _ m)
  | .wDutyChDuty m v, _ =>
    cases he
    split_ifs
    · exact (hset m _).trans (State.renewsSlots_dutyStart _ m)
    · exact hset m _
  | .wDutyChFade m v, _ => cases he; exact hset m _
  | .fireDuty m, _ =>
    obtain ⟨-, rfl⟩ := exec_fireDuty_next he
    exact s.renewsSlots_dutyFire m

theorem State.renewsSlots_mcmpPut (s : State) (o : OpIx) (k : OutIx) (c : OutCh) {d : Option Nat} (es : List Event)
    (hd : SlotLater s.now d) : RenewsSlots s (s.mcmpPut o k c d es) :=
  renewsSlots_of_oneSlot rfl (s.sched.set_oneSlot (.mcmp o k) d) hd

/-- 45_multi_timer_compare.md R246. -/
theorem State.renewsSlots_mcmpArm (s : State) (o : OpIx) (k : OutIx) (x : Cmp) : RenewsSlots s (s.mcmpArm o k x) := by
  rw [State.mcmpArm_eq]
  cases ht : s.mcmpTimes o x with
  | none => exact s.renewsSlots_mcmpPut o k _ _ (slotLater_none _)
  | some p => exact s.renewsSlots_mcmpPut o k _ _ (slotLater_now_add (toggleTimes_pos ht true))

/-- 45_multi_timer_compare.md R248. -/
theorem State.renewsSlots_mcmpFire (s : State) (o : OpIx) (k : OutIx) : RenewsSlots s (s.mcmpFire o k) := by
  rw [State.mcmpFire_eq]
  cases ht : s.mcmpTimes o (s.mcmpOut o k).src with
  | none => exact s.renewsSlots_mcmpPut o k _ _ (slotLater_none _)
  | some p => exact s.renewsSlots_mcmpPut o k _ _ (slotLater_now_add (toggleTimes_pos ht _))

/-- 45_multi_timer_compare.md R250, R251. -/
theorem renewsSlots_compareWrite {o : OpIx} {x : Cmp} {v : Word} {s t : State}
    (he : exec (compareWrite o x v) s = .next t) : RenewsSlots s t := by
  have hset : ∀ y, RenewsSlots s (s.setMcmpOp o y) := fun _ => renewsSlots_of_sched_eq rfl rfl
  cases (exec_compareWrite s o x v).symm.trans he
  split_ifs
  · exact (hset _).trans (State.renewsSlots_mcmpArm _ o _ x)
  · exact hset _

theorem renewsSlots_of_reach_mcmp {i : Instr} {s t : State} (h : reach i = .mcmp) (he : exec i s = .next t) :
    RenewsSlots s t := by
  match i, h with
  | .wMcmpTmrCfg m v, _ => cases he; exact renewsSlots_of_sched_eq rfl rfl
  | .wMcmpOpMode o v, _ => cases he; exact renewsSlots_of_sched_eq rfl rfl
  | .wMcmpOpCmpa o v, _ => exact renewsSlots_compareWrite (x := .a) he
  | .wMcmpOpCmpb o v, _ => exact renewsSlots_compareWrite (x := .b) he
  | .fireMcmp o k, _ =>
    obtain ⟨-, rfl⟩ := exec_fireMcmp_next he
    exact s.renewsSlots_mcmpFire o k

/-! The streaming engine. -/

/-- 46_stream_waveform.md R268: the bursts of a runnable channel take time. -/
theorem burstTime_pos_of_runnable {p : Params} {c : StrmCh} (h : Runnable p c) :
    0 < c.burst.toNat * (c.div.toNat * Config.unitsPerSecond / p.strmClkHz) := by
  obtain ⟨-, -, hburst, htime⟩ := h
  exact Nat.mul_pos (Nat.pos_of_ne_zero hburst) (Nat.pos_of_ne_zero htime)

/-- 46_stream_waveform.md R280: a tick arms after a full burst only. -/
theorem renewsSlots_of_drained {n : StrmIx} {s t : State}
    (hrun : (s.strmCh n).running = true → Runnable s.params (s.strmCh n)) (hd : Drained n s t) : RenewsSlots s t := by
  rcases hd with ⟨_, rfl⟩ | ⟨_, _, q, rfl, _⟩ | ⟨_, _, j, _, _, _, q, rfl, _⟩ | ⟨hr, _, _, q, x, rfl, _, _, _, hslot⟩
  · exact renewsSlots_of_sched_eq rfl rfl
  · exact renewsSlots_of_sched_eq rfl rfl
  · exact renewsSlots_of_sched_eq rfl rfl
  · exact renewsSlots_of_oneSlot rfl hslot (slotLater_now_add (burstTime_pos_of_runnable (hrun hr)))

theorem State.renewsSlots_drain (s : State) (n : StrmIx)
    (hrun : (s.strmCh n).running = true → Runnable s.params (s.strmCh n)) : RenewsSlots s (s.drain n) :=
  renewsSlots_of_drained hrun (s.drain_drained n)

theorem State.renewsSlots_setStrmCh (s : State) (n : StrmIx) (c : StrmCh) : RenewsSlots s (s.setStrmCh n c) :=
  renewsSlots_of_sched_eq rfl rfl

theorem State.renewsSlots_cancel (s : State) (tok : Token) : RenewsSlots s (s.cancel tok) :=
  renewsSlots_of_oneSlot rfl (s.sched.set_oneSlot tok none) (slotLater_none _)

/-- 46_stream_waveform.md R279: only a runnable channel is started. -/
theorem State.renewsSlots_strmStart (s : State) (n : StrmIx) : RenewsSlots s (s.strmStart n) := by
  unfold State.strmStart
  dsimp only
  split_ifs with hrun
  · refine (s.renewsSlots_setStrmCh n _).trans (State.renewsSlots_drain _ n fun _ => ?_)
    rw [State.strmCh_setStrmCh, if_pos rfl]
    exact (runnable_iff _ _).mp hrun
  · exact s.renewsSlots_setStrmCh n _

/-- 46_stream_waveform.md R287: only a running channel is resumed. -/
theorem StrmShape.renewsSlots_strmResume {s : State} {n : StrmIx} (h : StrmShape s n) :
    RenewsSlots s (s.strmResume n) := by
  unfold State.strmResume
  split_ifs with hcond
  · obtain ⟨-, hrun, -⟩ := h.running hcond.1
    refine (s.renewsSlots_setStrmCh n _).trans (State.renewsSlots_drain _ n fun _ => ?_)
    rw [State.strmCh_setStrmCh, if_pos rfl]
    exact hrun
  · exact renewsSlots_of_sched_eq rfl rfl

/-- R287: each resume leaves every channel in shape for the next. -/
theorem renewsSlots_foldl_strmResume (ns : List StrmIx) {s : State} (h : ∀ n, StrmShape s n) :
    RenewsSlots s (ns.foldl State.strmResume s) := by
  induction ns generalizing s with
  | nil => exact renewsSlots_of_sched_eq rfl rfl
  | cons n ns ih =>
    refine (h n).renewsSlots_strmResume.trans (ih fun m => ?_)
    by_cases hm : m = n
    · exact hm ▸ (h n).strmResume.toStrmShape
    · exact (h m).of_same ((s.onlyStrmCh_strmResume n).others m hm)

/-- R287: the acknowledgement clears raw bits and leaves the channels. -/
theorem StrmShape.strmCleared {s : State} {n : StrmIx} (h : StrmShape s n) (v : Word) : StrmShape (s.strmCleared v) n where
  ahead := h.ahead
  stopped := h.stopped
  running := h.running
  oneBit := by
    rw [State.strmCleared_raw, State.strmCleared_raw, Bool.and_eq_true, Bool.and_eq_true]
    exact fun hbits => h.oneBit ⟨hbits.1.1, hbits.2.1⟩

theorem renewsSlots_of_reach_strm {i : Instr} {s t : State} (h : reach i = .strm) (hinv : Inv s)
    (he : exec i s = .next t) : RenewsSlots s t := by
  match i, h with
  | .wStrmChConf n v, _ =>
    have hstored : RenewsSlots s (s.strmStored n v) :=
      ((s.renewsSlots_cancel _).trans (State.renewsSlots_setStrmCh _ n _)).trans (State.renewsSlots_setStrmCh _ n _)
    rw [exec_wStrmChConf] at he
    cases he
    split_ifs
    · exact hstored.trans (State.renewsSlots_strmStart _ n)
    · exact hstored
  | .wStrmIntEnable v, _ => cases he; exact renewsSlots_of_sched_eq rfl rfl
  | .wStrmIntClear v, _ =>
    rw [exec_wStrmIntClear] at he
    cases he
    have hcleared : RenewsSlots s (s.strmCleared v) := renewsSlots_of_sched_eq rfl rfl
    exact hcleared.trans (renewsSlots_foldl_strmResume _ fun n => (strmOk_of_inv hinv n).strmCleared v)
  | .wStrmRam n j v, _ => cases he; exact s.renewsSlots_setStrmCh n _
  | .fireStrm n, _ =>
    obtain ⟨-, rfl⟩ := exec_fireStrm_next he
    refine (s.renewsSlots_cancel _).trans (State.renewsSlots_drain _ n fun hr => ?_)
    obtain ⟨-, hrun, -⟩ := (strmOk_of_inv hinv n).running hr
    exact hrun

/-! Every operation. -/

/-- Settles O47, by what the operation reaches: the engines arm after a phase or a burst, both of which take time, and
nothing else arms. -/
theorem newDeadlinesAreStrictlyLater : Obligations.NewDeadlinesAreStrictlyLater := by
  unfold Obligations.NewDeadlinesAreStrictlyLater
  intro i s t tok hinv he
  cases hr : reach i with
  | gpio =>
    obtain ⟨g, hg⟩ := exec_of_reach_gpio hr s
    cases hg.symm.trans he
    exact .inl rfl
  | duty n => exact (renewsSlots_of_reach_duty hr he).slot tok
  | dutyLatch =>
    obtain ⟨l, hl⟩ := exec_of_reach_dutyLatch hr s
    cases hl.symm.trans he
    exact .inl rfl
  | mcmp => exact (renewsSlots_of_reach_mcmp hr he).slot tok
  | strm => exact (renewsSlots_of_reach_strm hr hinv he).slot tok
  | clock =>
    obtain ⟨u, rfl⟩ := eq_advance_of_reach_clock hr
    obtain ⟨-, rfl⟩ := exec_advance_next he
    exact .inl rfl
  | nothing =>
    obtain ⟨es, d, rfl⟩ := exec_of_reach_nothing hr he
    exact .inl rfl
  | everything =>
    cases eq_reset_of_reach_everything hr
    cases he
    exact .inr (.inl (Sched.get_empty tok))

end Sys2Proof.Machine
end

section
/-! PROOF. Two callbacks due together (47_virtual_clock.md R303, decision D40): each reads what no callback writes and the part
of its own token, and writes that part and the trace alone, so either order leads to the same parts. -/

namespace Sys2Proof.Machine

open Sys2Proof.Safety

/-! What a callback reads and writes. -/

/-- The channel of a token, with its bits of the latch group. -/
inductive ChannelPart where
  | duty (c : DutyCh) (complete : Bool)
  | mcmp (c : OutCh)
  | strm (c : StrmCh) (complete threshold : Bool)

def State.channelPart (s : State) (tok : Token) : ChannelPart :=
  match tok with
  | .duty n => .duty (s.dutyCh n) (s.duty.latch.raw.getLsbD n.val)
  | .mcmp o k => .mcmp (s.mcmpOut o k)
  | .strm n => .strm (s.strmCh n) (s.strm.latch.raw.getLsbD n.val) (s.strm.latch.raw.getLsbD (8 + n.val))

/-- All that belongs to a token: its slot and its channel. -/
def State.own (s : State) (tok : Token) : Option Nat × ChannelPart := (s.sched.get tok, s.channelPart tok)

/-- All that belongs to no token, but for the trace. -/
structure SameShared (s t : State) : Prop where
  now : t.now = s.now
  params : t.params = s.params
  inbox : t.inbox = s.inbox
  busData : t.busData = s.busData
  gpio : t.gpio = s.gpio
  tmr : t.mcmp.tmr = s.mcmp.tmr
  op : t.mcmp.op = s.mcmp.op
  dutyEnable : t.duty.latch.enable = s.duty.latch.enable
  strmEnable : t.strm.latch.enable = s.strm.latch.enable
  strmReserved : ∀ b, b < 16 → (∀ n, ¬ IsStrmBit n b) → t.strm.latch.raw.getLsbD b = s.strm.latch.raw.getLsbD b

theorem SameShared.refl (s : State) : SameShared s s :=
  ⟨rfl, rfl, rfl, rfl, rfl, rfl, rfl, rfl, rfl, fun _ _ _ => rfl⟩

theorem SameShared.symm {s t : State} (h : SameShared s t) : SameShared t s :=
  ⟨h.now.symm, h.params.symm, h.inbox.symm, h.busData.symm, h.gpio.symm, h.tmr.symm, h.op.symm, h.dutyEnable.symm,
    h.strmEnable.symm, fun b hb hr => (h.strmReserved b hb hr).symm⟩

theorem SameShared.trans {s t u : State} (h : SameShared s t) (k : SameShared t u) : SameShared s u :=
  ⟨k.now.trans h.now, k.params.trans h.params, k.inbox.trans h.inbox, k.busData.trans h.busData, k.gpio.trans h.gpio,
    k.tmr.trans h.tmr, k.op.trans h.op, k.dutyEnable.trans h.dutyEnable, k.strmEnable.trans h.strmEnable,
    fun b hb hr => (k.strmReserved b hb hr).trans (h.strmReserved b hb hr)⟩

theorem own_duty_iff {s t : State} {n : DutyIx} : t.own (.duty n) = s.own (.duty n) ↔
    t.sched.get (.duty n) = s.sched.get (.duty n) ∧ t.dutyCh n = s.dutyCh n ∧
      t.duty.latch.raw.getLsbD n.val = s.duty.latch.raw.getLsbD n.val := by
  simp only [State.own, State.channelPart, Prod.mk.injEq, ChannelPart.duty.injEq]

theorem own_mcmp_iff {s t : State} {o : OpIx} {k : OutIx} : t.own (.mcmp o k) = s.own (.mcmp o k) ↔
    t.sched.get (.mcmp o k) = s.sched.get (.mcmp o k) ∧ t.mcmpOut o k = s.mcmpOut o k := by
  simp only [State.own, State.channelPart, Prod.mk.injEq, ChannelPart.mcmp.injEq]

theorem own_strm_iff {s t : State} {n : StrmIx} : t.own (.strm n) = s.own (.strm n) ↔
    t.sched.get (.strm n) = s.sched.get (.strm n) ∧ t.strmCh n = s.strmCh n ∧
      t.strm.latch.raw.getLsbD n.val = s.strm.latch.raw.getLsbD n.val ∧
      t.strm.latch.raw.getLsbD (8 + n.val) = s.strm.latch.raw.getLsbD (8 + n.val) := by
  simp only [State.own, State.channelPart, Prod.mk.injEq, ChannelPart.strm.injEq]

theorem slot_of_own {s t : State} {tok : Token} (h : t.own tok = s.own tok) : t.sched.get tok = s.sched.get tok :=
  congrArg Prod.fst h

theorem SameStrmCh.own {n : StrmIx} {s t : State} (h : SameStrmCh n s t) : t.own (.strm n) = s.own (.strm n) :=
  own_strm_iff.mpr ⟨h.slot, h.ch, h.done, h.thr⟩

theorem sameStrmCh_of_own {n : StrmIx} {s t : State} (h : SameShared s t) (hown : t.own (.strm n) = s.own (.strm n)) :
    SameStrmCh n s t := by
  obtain ⟨hslot, hch, hdone, hthr⟩ := own_strm_iff.mp hown
  exact ⟨h.now, h.params, hch, hslot, hdone, hthr⟩

theorem duty_eq_of_own {s t : State} (h : SameShared s t) (hown : ∀ tok, t.own tok = s.own tok) : t.duty = s.duty := by
  have hch : t.duty.ch = s.duty.ch := by
    refine vector_ext_get fun n => ?_
    obtain ⟨-, hn, -⟩ := own_duty_iff.mp (hown (.duty n))
    exact hn
  have hraw : t.duty.latch.raw = s.duty.latch.raw := by
    refine BitVec.eq_of_getLsbD_eq fun b hb => ?_
    obtain ⟨-, -, hbit⟩ := own_duty_iff.mp (hown (.duty ⟨b, hb⟩))
    exact hbit
  show Duty.mk t.duty.ch ⟨t.duty.latch.raw, t.duty.latch.enable⟩ = s.duty
  rw [hch, hraw, h.dutyEnable]

theorem mcmp_eq_of_own {s t : State} (h : SameShared s t) (hown : ∀ tok, t.own tok = s.own tok) : t.mcmp = s.mcmp := by
  have hout : t.mcmp.out = s.mcmp.out :=
    vector_ext_get fun o => vector_ext_get fun k => (own_mcmp_iff.mp (hown (.mcmp o k))).2
  show Mcmp.mk t.mcmp.tmr t.mcmp.op t.mcmp.out = s.mcmp
  rw [h.tmr, h.op, hout]

theorem strm_eq_of_own {s t : State} (h : SameShared s t) (hown : ∀ tok, t.own tok = s.own tok) : t.strm = s.strm := by
  have hch : t.strm.ch = s.strm.ch := vector_ext_get fun n => (sameStrmCh_of_own h (hown (.strm n))).ch
  have hraw : t.strm.latch.raw = s.strm.latch.raw := by
    refine BitVec.eq_of_getLsbD_eq fun b hb => ?_
    by_cases hbit : ∃ n, IsStrmBit n b
    · obtain ⟨n, rfl | rfl⟩ := hbit
      · exact (sameStrmCh_of_own h (hown (.strm n))).done
      · exact (sameStrmCh_of_own h (hown (.strm n))).thr
    · exact h.strmReserved b hb (not_exists.mp hbit)
  show Strm.mk t.strm.ch ⟨t.strm.latch.raw, t.strm.latch.enable⟩ = s.strm
  rw [hch, hraw, h.strmEnable]

/-- A state is what belongs to no token, what belongs to each, and the trace. -/
theorem withTrace_eq_of_own {s t : State} (h : SameShared s t) (hown : ∀ tok, t.own tok = s.own tok) :
    t.withTrace [] = s.withTrace [] := by
  have hsched : t.sched = s.sched := Sched.ext_get fun tok => slot_of_own (hown tok)
  have hduty := duty_eq_of_own h hown
  have hmcmp := mcmp_eq_of_own h hown
  have hstrm := strm_eq_of_own h hown
  exact State.eq_of_fields _ _ h.now hsched h.gpio hduty hmcmp hstrm rfl h.params h.busData h.inbox

/-! The callbacks of the toggling engines: what each writes is the same in every state that agrees on what it reads. -/

/-- 43_gpio_crossbar.md R190: an announcement reads the shared part alone. -/
theorem SameShared.forwards_eq {s t : State} (h : SameShared s t) (sig : Nat) (level : Bool) (q : Option Word) :
    forwards t sig level q = forwards s sig level q := forwards_congr (congrArg Gpio.outsel h.gpio) sig level q

theorem SameShared.phaseEvents_eq {s t : State} (h : SameShared s t) (sig : Nat) (old new : Bool) :
    phaseEvents t sig old new = phaseEvents s sig old new := phaseEvents_congr (congrArg Gpio.outsel h.gpio) sig old new

theorem SameShared.mcmpTimes_eq {s t : State} (h : SameShared s t) (o : OpIx) (x : Cmp) :
    t.mcmpTimes o x = s.mcmpTimes o x := State.mcmpTimes_congr o x h.params h.tmr (congrArg (·.get o) h.op)

/-- 44_duty_timer.md R214. -/
theorem State.fire_duty_put (s : State) (n : DutyIx) :
    ∃ c d es, ∀ u, SameShared s u → u.dutyCh n = s.dutyCh n → u.fire (.duty n) =
      (u.withDuty { u.duty with latch := firedLatch u.duty.latch n (s.dutyCh n) }).dutyPut n c d es := by
  cases ht : dutyTimes s.params (toggledCh (s.dutyCh n)) with
  | none =>
    exact ⟨_, _, _, fun u h hch => by
      rw [State.fire, State.dutyFire_eq, hch, h.params, ht, h.forwards_eq, h.phaseEvents_eq]⟩
  | some p =>
    exact ⟨_, _, _, fun u h hch => by
      rw [State.fire, State.dutyFire_eq, hch, h.params, ht, h.now, h.forwards_eq]⟩

/-- 45_multi_timer_compare.md R248. -/
theorem State.fire_mcmp_put (s : State) (o : OpIx) (k : OutIx) :
    ∃ c d es, ∀ u, SameShared s u → u.mcmpOut o k = s.mcmpOut o k → u.fire (.mcmp o k) = u.mcmpPut o k c d es := by
  cases ht : s.mcmpTimes o (s.mcmpOut o k).src with
  | none =>
    exact ⟨_, _, _, fun u h hch => by
      rw [State.fire, State.mcmpFire_eq, hch, h.mcmpTimes_eq, ht, h.params, h.forwards_eq, h.phaseEvents_eq]⟩
  | some p =>
    exact ⟨_, _, _, fun u h hch => by
      rw [State.fire, State.mcmpFire_eq, hch, h.mcmpTimes_eq, ht, h.params, h.now, h.forwards_eq]⟩

/-- 44_duty_timer.md R215: whether a fire raises the channel's bit is read off the channel and its enable bit. -/
theorem firedLatch_getLsbD_congr {l l' : Latch 8} (n : DutyIx) (c : DutyCh) (hen : l'.enable = l.enable)
    (hraw : l'.raw.getLsbD n.val = l.raw.getLsbD n.val) :
    (firedLatch l' n c).raw.getLsbD n.val = (firedLatch l n c).raw.getLsbD n.val := by
  unfold firedLatch fadedLatch
  rw [hen]
  split_ifs
  · rw [Latch.hwSet_raw_getLsbD, Latch.hwSet_raw_getLsbD, hraw]
  · exact hraw
  · exact hraw

theorem State.own_dutyPut (s : State) (l : Latch 8) (n : DutyIx) (c : DutyCh) (d : Option Nat) (es : List Event) :
    ((s.withDuty { s.duty with latch := l }).dutyPut n c d es).own (.duty n) = (d, .duty c (l.raw.getLsbD n.val)) := by
  have hslot := (s.sched.set_oneSlot (.duty n) d).1
  have hch : (s.setDutyCh n c).dutyCh n = c := s.dutyCh_setDutyCh_self n c
  exact congrArg₂ Prod.mk hslot (congrArg (ChannelPart.duty · _) hch)

theorem State.own_mcmpPut (s : State) (o : OpIx) (k : OutIx) (c : OutCh) (d : Option Nat) (es : List Event) :
    (s.mcmpPut o k c d es).own (.mcmp o k) = (d, .mcmp c) := by
  have hslot := (s.sched.set_oneSlot (.mcmp o k) d).1
  have hch : (s.setMcmpOut o k c).mcmpOut o k = c := (s.oneOut_setMcmpOut o k c).1
  exact congrArg₂ Prod.mk hslot (congrArg ChannelPart.mcmp hch)

/-! A tick of a streaming channel, in two states that agree on the channel. -/

/-- Stream channel n is the same in `s` and `s'`, and so is what was appended since the traces `old` and `old'`. -/
structure TickAlike (n : StrmIx) (old old' : List Event) (s s' : State) : Prop where
  same : SameStrmCh n s s'
  appended : ∃ es, s.trace = old ++ es ∧ s'.trace = old' ++ es

section Tick

variable {n : StrmIx} {old old' : List Event} {s s' : State}

theorem TickAlike.setStrmCh (h : TickAlike n old old' s s') (c : StrmCh) :
    TickAlike n old old' (s.setStrmCh n c) (s'.setStrmCh n c) where
  same := ⟨h.same.now, h.same.params, by simp, h.same.slot, h.same.done, h.same.thr⟩
  appended := h.appended

theorem TickAlike.setSlot (h : TickAlike n old old' s s') (d : Option Nat) :
    TickAlike n old old' (s.withSched (s.sched.set (.strm n) d)) (s'.withSched (s'.sched.set (.strm n) d)) where
  same := ⟨h.same.now, h.same.params, h.same.ch, by simp, h.same.done, h.same.thr⟩
  appended := h.appended

theorem TickAlike.strmHwSet (h : TickAlike n old old' s s') (b : Nat) :
    TickAlike n old old' (s.strmHwSet b) (s'.strmHwSet b) where
  same := ⟨h.same.now, h.same.params, h.same.ch, h.same.slot, by simp [h.same.done], by simp [h.same.thr]⟩
  appended := h.appended

theorem TickAlike.emit (h : TickAlike n old old' s s') (es : List Event) :
    TickAlike n old old' (s.emit es) (s'.emit es) where
  same := ⟨h.same.now, h.same.params, h.same.ch, h.same.slot, h.same.done, h.same.thr⟩
  appended := by
    obtain ⟨before, hs, hs'⟩ := h.appended
    exact ⟨before ++ es, by simp [hs], by simp [hs']⟩

/-- 46_stream_waveform.md R280: the burst loop, word by word. -/
theorem TickAlike.strmBurst (k : Nat) {s s' : State} (h : TickAlike n old old' s s') :
    TickAlike n old old' (s.strmBurst n k) (s'.strmBurst n k) := by
  induction k generalizing s s' with
  | zero =>
    unfold State.strmBurst State.arm
    rw [State.strmHwSet_now, State.strmHwSet_now, h.same.now, h.same.params, h.same.ch]
    exact (h.strmHwSet _).setSlot _
  | succ k ih =>
    unfold State.strmBurst
    rw [h.same.ch]
    split_ifs
    · unfold State.strmComplete
      rw [h.same.ch]
      exact (h.setStrmCh _).strmHwSet _
    · refine ih ?_
      unfold State.strmSend
      dsimp only
      rw [h.same.ch, h.same.params]
      exact (h.emit _).setStrmCh _

/-- 46_stream_waveform.md R280, R281. -/
theorem TickAlike.drain (h : TickAlike n old old' s s') : TickAlike n old old' (s.drain n) (s'.drain n) := by
  have hblocked : s'.strmBlocked n = s.strmBlocked n := by rw [State.strmBlocked, State.strmBlocked, h.same.done, h.same.thr]
  unfold State.drain
  rw [h.same.ch, hblocked]
  split_ifs
  · exact h.setStrmCh _
  · exact h.strmBurst _
  · exact h

end Tick

/-! Every callback. -/

/-- R303: a callback is determined by what belongs to no token and what belongs to its own. -/
theorem fire_own_congr (tok : Token) {s s' : State} (h : SameShared s s') (hown : s'.own tok = s.own tok) :
    (s'.fire tok).own tok = (s.fire tok).own tok ∧
      ∃ es, (s.fire tok).trace = s.trace ++ es ∧ (s'.fire tok).trace = s'.trace ++ es := by
  cases tok with
  | duty n =>
    obtain ⟨-, hch, hraw⟩ := own_duty_iff.mp hown
    obtain ⟨c, d, es, hput⟩ := s.fire_duty_put n
    rw [hput s (.refl s) rfl, hput s' h hch, State.own_dutyPut, State.own_dutyPut,
      firedLatch_getLsbD_congr n _ h.dutyEnable hraw]
    exact ⟨rfl, es, rfl, rfl⟩
  | mcmp o k =>
    obtain ⟨-, hch⟩ := own_mcmp_iff.mp hown
    obtain ⟨c, d, es, hput⟩ := s.fire_mcmp_put o k
    rw [hput s (.refl s) rfl, hput s' h hch, State.own_mcmpPut, State.own_mcmpPut]
    exact ⟨rfl, es, rfl, rfl⟩
  | strm n =>
    have hstart : TickAlike n s.trace s'.trace s s' := ⟨sameStrmCh_of_own h hown, [], by simp, by simp⟩
    have hticked := (hstart.setSlot none).drain
    exact ⟨hticked.same.own, hticked.appended⟩

/-- R303: a callback writes nothing that belongs to no token. -/
theorem State.sameShared_fire (s : State) (tok : Token) : SameShared s (s.fire tok) := by
  cases tok with
  | duty n =>
    obtain ⟨c, d, es, hput⟩ := s.fire_duty_put n
    obtain ⟨hen, -⟩ := firedLatch_frame s.duty.latch n (s.dutyCh n)
    rw [hput s (.refl s) rfl]
    exact ⟨rfl, rfl, rfl, rfl, rfl, rfl, rfl, hen, rfl, fun _ _ _ => rfl⟩
  | mcmp o k =>
    obtain ⟨c, d, es, hput⟩ := s.fire_mcmp_put o k
    rw [hput s (.refl s) rfl]
    exact ⟨rfl, rfl, rfl, rfl, rfl, rfl, rfl, rfl, rfl, fun _ _ _ => rfl⟩
  | strm n =>
    have hframe := ((s.onlyStrmCh_cancel n).trans (State.onlyStrmCh_drain _ n)).frame
    obtain ⟨q, x, es, hs⟩ := (s.writesStrmOnly_cancel (.strm n)).trans (State.writesStrmOnly_drain _ n)
    exact ⟨hframe.now, hframe.params, (congrArg State.inbox hs).trans rfl, (congrArg State.busData hs).trans rfl,
      hframe.gpio, congrArg Mcmp.tmr hframe.mcmp, congrArg Mcmp.op hframe.mcmp, congrArg (·.latch.enable) hframe.duty,
      hframe.enable, hframe.reserved⟩

/-- R303: a callback writes nothing that belongs to another token. -/
theorem State.own_fire_of_ne (s : State) {tok tok' : Token} (hne : tok' ≠ tok) : (s.fire tok).own tok' = s.own tok' := by
  cases tok with
  | duty n =>
    obtain ⟨c, d, es, hput⟩ := s.fire_duty_put n
    rw [hput s (.refl s) rfl]
    refine congrArg₂ Prod.mk ((s.sched.set_oneSlot (.duty n) d).2 tok' hne) ?_
    cases tok' with
    | duty m =>
      have hm : m ≠ n := fun e => hne (congrArg Token.duty e)
      exact congrArg₂ ChannelPart.duty ((s.dutyCh_setDutyCh n m c).trans (if_neg hm))
        ((firedLatch_frame s.duty.latch n (s.dutyCh n)).2 m hm)
    | mcmp o k => rfl
    | strm m => rfl
  | mcmp o k =>
    obtain ⟨c, d, es, hput⟩ := s.fire_mcmp_put o k
    rw [hput s (.refl s) rfl]
    refine congrArg₂ Prod.mk ((s.sched.set_oneSlot (.mcmp o k) d).2 tok' hne) ?_
    cases tok' with
    | duty m => rfl
    | mcmp o' k' =>
      have hother : ¬ (o' = o ∧ k' = k) := fun ⟨ho, hk⟩ => hne (congrArg₂ Token.mcmp ho hk)
      exact congrArg ChannelPart.mcmp ((s.mcmpOut_setMcmpOut o o' k k' c).trans (if_neg hother))
    | strm m => rfl
  | strm n =>
    have honly := (s.onlyStrmCh_cancel n).trans (State.onlyStrmCh_drain _ n)
    cases tok' with
    | duty m =>
      exact congrArg₂ Prod.mk (honly.frame.slot _ nofun)
        (congrArg (fun q : Duty => ChannelPart.duty (q.ch.get m) (q.latch.raw.getLsbD m.val)) honly.frame.duty)
    | mcmp o k =>
      exact congrArg₂ Prod.mk (honly.frame.slot _ nofun)
        (congrArg (fun q : Mcmp => ChannelPart.mcmp ((q.out.get o).get k)) honly.frame.mcmp)
    | strm m => exact (honly.others m fun e => hne (congrArg Token.strm e)).own

/-- Settles O45: `FIRE` is guarded by its enabling condition, and its callback leaves the slots of the other tokens. -/
theorem fireRunsExactlyWhenDue : Obligations.FireRunsExactlyWhenDue := by
  unfold Obligations.FireRunsExactlyWhenDue
  refine fun s tok => ⟨fun hdue => ⟨s.fire tok, exec_fireOp_of_due hdue, fun tok' hne => ?_⟩, fun hnot u he => ?_⟩
  · exact slot_of_own (s.own_fire_of_ne hne)
  · rw [exec_fireOp, if_neg (mt (s.due_iff tok).mp hnot)] at he
    cases he

/-- R303: the callback of another token leaves a due token due. -/
theorem due_fire_of_ne {s : State} {tok tok' : Token} (hne : tok' ≠ tok) (hdue : s.sched.get tok' = some s.now) :
    (s.fire tok).sched.get tok' = some (s.fire tok).now := by
  rw [slot_of_own (s.own_fire_of_ne hne), (s.sameShared_fire tok).now]
  exact hdue

/-- R303 (decision D40): what belongs to the token that fires first is the same as if it had fired second. -/
theorem own_fire_fire {a b : Token} (hne : a ≠ b) (s : State) :
    ((s.fire a).fire b).own a = ((s.fire b).fire a).own a := by
  obtain ⟨hsame, -⟩ := fire_own_congr a (s.sameShared_fire b) (s.own_fire_of_ne hne)
  exact ((s.fire a).own_fire_of_ne hne).trans hsame.symm

/-- R303 (decision D40): the two orders end in the same state but for the trace. -/
theorem fire_fire_withTrace {a b : Token} (hne : a ≠ b) (s : State) :
    ((s.fire a).fire b).withTrace [] = ((s.fire b).fire a).withTrace [] := by
  have hab : SameShared s ((s.fire a).fire b) := (s.sameShared_fire a).trans (State.sameShared_fire _ b)
  have hba : SameShared s ((s.fire b).fire a) := (s.sameShared_fire b).trans (State.sameShared_fire _ a)
  refine withTrace_eq_of_own (hba.symm.trans hab) fun tok => ?_
  by_cases ha : tok = a
  · exact ha ▸ own_fire_fire hne s
  by_cases hb : tok = b
  · exact hb ▸ (own_fire_fire hne.symm s).symm
  · calc ((s.fire a).fire b).own tok
        = s.own tok := (State.own_fire_of_ne _ hb).trans (s.own_fire_of_ne ha)
      _ = ((s.fire b).fire a).own tok := ((State.own_fire_of_ne _ ha).trans (s.own_fire_of_ne hb)).symm

/-- Settles O46: each of the two callbacks reads nothing the other writes, so each emits the same events and leaves the same
behind whether it runs first or second. -/
theorem dueCallbacksCommute : Obligations.DueCallbacksCommute := by
  unfold Obligations.DueCallbacksCommute
  intro s a b hne ha hb
  obtain ⟨-, ea, hea, hea'⟩ := fire_own_congr a (s.sameShared_fire b) (s.own_fire_of_ne hne)
  obtain ⟨-, eb, heb, heb'⟩ := fire_own_congr b (s.sameShared_fire a) (s.own_fire_of_ne hne.symm)
  refine ⟨s.fire a, (s.fire a).fire b, s.fire b, (s.fire b).fire a, ea, eb, exec_fireOp_of_due ha,
    exec_fireOp_of_due (due_fire_of_ne hne.symm hb), exec_fireOp_of_due hb, exec_fireOp_of_due (due_fire_of_ne hne ha),
    fire_fire_withTrace hne s, ?_, ?_⟩
  · rw [heb', hea]
  · rw [hea', heb]

end Sys2Proof.Machine
end
